-- ==== Sys2Proof/Word.lean ====
section
/-! DEFINITION. The words of GM-CORE: widths fixed by 00_scope.md R5, R6 and 30_encoding.md R70. -/

namespace Sys2Proof

/-- A 256-bit unsigned integer, four 64-bit limbs (R5, R22). -/
abbrev U256 := BitVec 256

/-- One 64-bit limb of a `U256` (R5). -/
abbrev Limb := BitVec 64

/-- A 64-bit mantissa pattern, given meaning only by an `FP` record (R7, R11). -/
abbrev F64 := BitVec 64

/-- A 32-bit floating-point pattern, the result of `FP.toF32` (R7). -/
abbrev F32 := BitVec 32

/-- The 32-bit command word (R6, R70). -/
abbrev CmdWord := BitVec 32

/-- The 64-bit data word that accompanies a command (R6, R70). -/
abbrev CmdData := BitVec 64

/-- A register number, 0 to 7 (R21). -/
abbrev Reg := Fin 8

/-- A limb index by significance: 0 = D, 1 = C, 2 = B, 3 = A (R10). -/
abbrev LimbIx := Fin 4

end Sys2Proof
end

