-- ==== Sys2Proof/Syntax.lean ====
section
/-! DEFINITION. The commands of GM-CORE, one constructor per row of the opcode table (30_encoding.md R75, R76).
The 64-bit immediate of LDI, LDL and LDM is `cmd_data` (R73). -/

namespace Sys2Proof

/-- The 45 commands of R76. -/
inductive Instr where
  /-- `NOP` (R100). -/
  | nop
  /-- `LDI rd, #imm64` (R101). -/
  | ldi (rd : Reg) (imm64 : CmdData)
  /-- `LDL rd, k, #imm64` (R102). -/
  | ldl (rd : Reg) (k : LimbIx) (imm64 : CmdData)
  /-- `LDM rd, #imm64` (R103). -/
  | ldm (rd : Reg) (imm64 : CmdData)
  /-- `RDL rs1, k` (R104). -/
  | rdl (rs1 : Reg) (k : LimbIx)
  /-- `RDM rs1` (R105). -/
  | rdm (rs1 : Reg)
  /-- `RDST` (R106). -/
  | rdst
  /-- `CLRERR` (R107). -/
  | clrerr
  /-- `MOV rd, rs1` (R108). -/
  | mov (rd rs1 : Reg)
  /-- `U.ADD rd, rs1, rs2` (R121). -/
  | uadd (rd rs1 rs2 : Reg)
  /-- `U.SUB rd, rs1, rs2` (R122). -/
  | usub (rd rs1 rs2 : Reg)
  /-- `U.NEG rd, rs1` (R123). -/
  | uneg (rd rs1 : Reg)
  /-- `U.INC rd, rs1` (R124). -/
  | uinc (rd rs1 : Reg)
  /-- `U.DEC rd, rs1` (R125). -/
  | udec (rd rs1 : Reg)
  /-- `U.MUL rd, rs1, rs2` (R151). -/
  | umul (rd rs1 rs2 : Reg)
  /-- `U.DIV rd, rs1, rs2` (R153). -/
  | udiv (rd rs1 rs2 : Reg)
  /-- `U.MOD rd, rs1, rs2` (R154). -/
  | umod (rd rs1 rs2 : Reg)
  /-- `U.AND rd, rs1, rs2` (R126). -/
  | uand (rd rs1 rs2 : Reg)
  /-- `U.OR rd, rs1, rs2` (R127). -/
  | uor (rd rs1 rs2 : Reg)
  /-- `U.NOT rd, rs1` (R128). -/
  | unot (rd rs1 : Reg)
  /-- `U.SHL rd, rs1, rs2` (R172). -/
  | ushl (rd rs1 rs2 : Reg)
  /-- `U.SHR rd, rs1, rs2` (R173). -/
  | ushr (rd rs1 rs2 : Reg)
  /-- `U.SHLI rd, rs1, #imm12`; the count is the natural number `imm12` (R73, R174). -/
  | ushli (rd rs1 : Reg) (count : Nat)
  /-- `U.SHRI rd, rs1, #imm12`; the count is the natural number `imm12` (R73, R175). -/
  | ushri (rd rs1 : Reg) (count : Nat)
  /-- `U.CMP rs1, rs2` (R129). -/
  | ucmp (rs1 rs2 : Reg)
  /-- `SD64.NORM rd, rs1` (R197). -/
  | sd64Norm (rd rs1 : Reg)
  /-- `SD64.ADD rd, rs1, rs2` (R221). -/
  | sd64Add (rd rs1 rs2 : Reg)
  /-- `SD64.SUB rd, rs1, rs2` (R222). -/
  | sd64Sub (rd rs1 rs2 : Reg)
  /-- `SD64.NEG rd, rs1` (R198). -/
  | sd64Neg (rd rs1 : Reg)
  /-- `SD64.MUL rd, rs1, rs2` (R223). -/
  | sd64Mul (rd rs1 rs2 : Reg)
  /-- `SD64.DIV rd, rs1, rs2` (R224). -/
  | sd64Div (rd rs1 rs2 : Reg)
  /-- `SD64.CMP rs1, rs2` (R241). -/
  | sd64Cmp (rs1 rs2 : Reg)
  /-- `SD64.REAL rs1` (R245). -/
  | sd64Real (rs1 : Reg)
  /-- `SD64.CVTD rs1` (R246). -/
  | sd64Cvtd (rs1 : Reg)
  /-- `SD64.CVTS rs1` (R247). -/
  | sd64Cvts (rs1 : Reg)
  /-- `SD256.NORM rd, rs1` (R197). -/
  | sd256Norm (rd rs1 : Reg)
  /-- `SD256.ADD rd, rs1, rs2` (R221). -/
  | sd256Add (rd rs1 rs2 : Reg)
  /-- `SD256.SUB rd, rs1, rs2` (R222). -/
  | sd256Sub (rd rs1 rs2 : Reg)
  /-- `SD256.NEG rd, rs1` (R198). -/
  | sd256Neg (rd rs1 : Reg)
  /-- `SD256.MUL rd, rs1, rs2` (R223). -/
  | sd256Mul (rd rs1 rs2 : Reg)
  /-- `SD256.DIV rd, rs1, rs2` (R224). -/
  | sd256Div (rd rs1 rs2 : Reg)
  /-- `SD256.CMP rs1, rs2` (R241). -/
  | sd256Cmp (rs1 rs2 : Reg)
  /-- `SD256.REAL rs1` (R245). -/
  | sd256Real (rs1 : Reg)
  /-- `SD256.CVTD rs1` (R246). -/
  | sd256Cvtd (rs1 : Reg)
  /-- `SD256.CVTS rs1` (R247). -/
  | sd256Cvts (rs1 : Reg)
deriving DecidableEq, Repr

end Sys2Proof
end

