-- ==== Sys2Proof/WellFormed.lean ====
section
/-! DEFINITION. Which instruction terms an encoding can express: the one operand whose type is wider than its field
is the shift count, 0 to 4095 (30_encoding.md R71, R73). Register numbers and limb indices are in range by type. -/

namespace Sys2Proof

/-- An immediate shift count fits the 12-bit field `imm12` (R73). -/
def shiftCountFits (count : Nat) : Bool := count < 4096

/-- The well-formed instructions: those that some command word stands for. -/
def Instr.wf (i : Instr) : Bool :=
  match i with
  | .nop => true
  | .ldi _ _ => true
  | .ldl _ _ _ => true
  | .ldm _ _ => true
  | .rdl _ _ => true
  | .rdm _ => true
  | .rdst => true
  | .clrerr => true
  | .mov _ _ => true
  | .uadd _ _ _ => true
  | .usub _ _ _ => true
  | .uneg _ _ => true
  | .uinc _ _ => true
  | .udec _ _ => true
  | .umul _ _ _ => true
  | .udiv _ _ _ => true
  | .umod _ _ _ => true
  | .uand _ _ _ => true
  | .uor _ _ _ => true
  | .unot _ _ => true
  | .ushl _ _ _ => true
  | .ushr _ _ _ => true
  | .ushli _ _ count => shiftCountFits count
  | .ushri _ _ count => shiftCountFits count
  | .ucmp _ _ => true
  | .sd64Norm _ _ => true
  | .sd64Add _ _ _ => true
  | .sd64Sub _ _ _ => true
  | .sd64Neg _ _ => true
  | .sd64Mul _ _ _ => true
  | .sd64Div _ _ _ => true
  | .sd64Cmp _ _ => true
  | .sd64Real _ => true
  | .sd64Cvtd _ => true
  | .sd64Cvts _ => true
  | .sd256Norm _ _ => true
  | .sd256Add _ _ _ => true
  | .sd256Sub _ _ _ => true
  | .sd256Neg _ _ => true
  | .sd256Mul _ _ _ => true
  | .sd256Div _ _ _ => true
  | .sd256Cmp _ _ => true
  | .sd256Real _ => true
  | .sd256Cvtd _ => true
  | .sd256Cvts _ => true

end Sys2Proof
end

