-- ==== Sys2Proof/Decode.lean ====
section
/-! DEFINITION. The command encoding (30_encoding.md R70 to R77): fields, formats and masks, the opcode map, the decoder, and
the encoder. A command is a 32-bit word and a 64-bit data word; every word that matches no row of the table is illegal. -/

namespace Sys2Proof

/-! ## Fields (R71) -/

/-- Bits 31:24. -/
def opcodeOf (w : CmdWord) : BitVec 8 := w.extractLsb' 24 8

/-- Bits 23:21, the destination register. -/
def rdOf (w : CmdWord) : Reg := (w.extractLsb' 21 3).toFin

/-- Bits 20:18, the first source register. -/
def rs1Of (w : CmdWord) : Reg := (w.extractLsb' 18 3).toFin

/-- Bits 17:15, the second source register. -/
def rs2Of (w : CmdWord) : Reg := (w.extractLsb' 15 3).toFin

/-- Bits 11:0, the unsigned shift count. -/
def imm12Of (w : CmdWord) : BitVec 12 := w.extractLsb' 0 12

/-- Bits 1:0, the limb index `k`. -/
def limbOf (w : CmdWord) : LimbIx := (w.extractLsb' 0 2).toFin

/-! ## Formats (R72) -/

/-- The nine formats. -/
inductive Format where
  | n
  | d
  | dl
  | s
  | sl
  | r2
  | r3
  | c
  | i
deriving DecidableEq, Repr

/-- The bits of the command word that must match, one mask a format (R72). -/
def formatMask (f : Format) : CmdWord :=
  match f with
  | .n => 0xFFFFFFFF#32
  | .d => 0xFF1FFFFF#32
  | .dl => 0xFF1FFFFC#32
  | .s => 0xFFE3FFFF#32
  | .sl => 0xFFE3FFFC#32
  | .r2 => 0xFF03FFFF#32
  | .r3 => 0xFF007FFF#32
  | .c => 0xFFE07FFF#32
  | .i => 0xFF03F000#32

/-- A row of the opcode table: its format, and the instruction that a word and its data word stand for. -/
structure Row where
  /-- which bits must match -/
  format : Format
  /-- the instruction with the operands the format carries -/
  build : CmdWord → CmdData → Instr

/-- A row of format N. -/
def rowN (i : Instr) : Row := ⟨.n, fun _ _ => i⟩

/-- A row of format D: `rd`, and the 64-bit immediate `cmd_data` (R73). -/
def rowD (mk : Reg → CmdData → Instr) : Row := ⟨.d, fun w data => mk (rdOf w) data⟩

/-- A row of format DL: `rd`, `k`, and the 64-bit immediate `cmd_data` (R73). -/
def rowDL (mk : Reg → LimbIx → CmdData → Instr) : Row := ⟨.dl, fun w data => mk (rdOf w) (limbOf w) data⟩

/-- A row of format S: `rs1`. -/
def rowS (mk : Reg → Instr) : Row := ⟨.s, fun w _ => mk (rs1Of w)⟩

/-- A row of format SL: `rs1`, `k`. -/
def rowSL (mk : Reg → LimbIx → Instr) : Row := ⟨.sl, fun w _ => mk (rs1Of w) (limbOf w)⟩

/-- A row of format R2: `rd`, `rs1`. -/
def rowR2 (mk : Reg → Reg → Instr) : Row := ⟨.r2, fun w _ => mk (rdOf w) (rs1Of w)⟩

/-- A row of format R3: `rd`, `rs1`, `rs2`. -/
def rowR3 (mk : Reg → Reg → Reg → Instr) : Row := ⟨.r3, fun w _ => mk (rdOf w) (rs1Of w) (rs2Of w)⟩

/-- A row of format C: `rs1`, `rs2`. -/
def rowC (mk : Reg → Reg → Instr) : Row := ⟨.c, fun w _ => mk (rs1Of w) (rs2Of w)⟩

/-- A row of format I: `rd`, `rs1`, and `imm12` as it stands, not scaled, not sign-extended (R73). -/
def rowI (mk : Reg → Reg → Nat → Instr) : Row := ⟨.i, fun w _ => mk (rdOf w) (rs1Of w) (imm12Of w).toNat⟩

/-! ## The opcode map (R76) -/

/-- The row of an opcode; `none` for an unassigned one (R76, R77). -/
def rowOf (op : BitVec 8) : Option Row :=
  match op with
  | 0x00#8 => some (rowN .nop)
  | 0x01#8 => some (rowD .ldi)
  | 0x02#8 => some (rowDL .ldl)
  | 0x03#8 => some (rowD .ldm)
  | 0x04#8 => some (rowSL .rdl)
  | 0x05#8 => some (rowS .rdm)
  | 0x06#8 => some (rowN .rdst)
  | 0x07#8 => some (rowN .clrerr)
  | 0x08#8 => some (rowR2 .mov)
  | 0x10#8 => some (rowR3 .uadd)
  | 0x11#8 => some (rowR3 .usub)
  | 0x12#8 => some (rowR2 .uneg)
  | 0x13#8 => some (rowR2 .uinc)
  | 0x14#8 => some (rowR2 .udec)
  | 0x15#8 => some (rowR3 .umul)
  | 0x16#8 => some (rowR3 .udiv)
  | 0x17#8 => some (rowR3 .umod)
  | 0x18#8 => some (rowR3 .uand)
  | 0x19#8 => some (rowR3 .uor)
  | 0x1A#8 => some (rowR2 .unot)
  | 0x1B#8 => some (rowR3 .ushl)
  | 0x1C#8 => some (rowR3 .ushr)
  | 0x1D#8 => some (rowI .ushli)
  | 0x1E#8 => some (rowI .ushri)
  | 0x1F#8 => some (rowC .ucmp)
  | 0x20#8 => some (rowR2 .sd64Norm)
  | 0x21#8 => some (rowR3 .sd64Add)
  | 0x22#8 => some (rowR3 .sd64Sub)
  | 0x23#8 => some (rowR2 .sd64Neg)
  | 0x24#8 => some (rowR3 .sd64Mul)
  | 0x25#8 => some (rowR3 .sd64Div)
  | 0x26#8 => some (rowC .sd64Cmp)
  | 0x27#8 => some (rowS .sd64Real)
  | 0x28#8 => some (rowS .sd64Cvtd)
  | 0x29#8 => some (rowS .sd64Cvts)
  | 0x30#8 => some (rowR2 .sd256Norm)
  | 0x31#8 => some (rowR3 .sd256Add)
  | 0x32#8 => some (rowR3 .sd256Sub)
  | 0x33#8 => some (rowR2 .sd256Neg)
  | 0x34#8 => some (rowR3 .sd256Mul)
  | 0x35#8 => some (rowR3 .sd256Div)
  | 0x36#8 => some (rowC .sd256Cmp)
  | 0x37#8 => some (rowS .sd256Real)
  | 0x38#8 => some (rowS .sd256Cvtd)
  | 0x39#8 => some (rowS .sd256Cvts)
  | _ => none

/-- The match word of an opcode: the opcode in bits 31:24, every other bit 0 (R72). -/
def matchWord (op : BitVec 8) : CmdWord := op.setWidth 32 <<< 24

/-- Why a command word is illegal (R77). -/
inductive Reject where
  /-- the opcode byte is not in R76 -/
  | unassignedOpcode (op : BitVec 8)
  /-- the opcode is assigned, and a bit that its format requires to be 0 is 1 -/
  | unusedBitsSet (op : BitVec 8)
deriving DecidableEq, Repr

/-- What the decoder makes of a command. -/
inductive Decoded where
  /-- the word selects a row of the table -/
  | ok (i : Instr)
  /-- the word matches no row -/
  | illegal (why : Reject)
deriving DecidableEq, Repr

/-- The decoder: the word selects the row of its opcode exactly when `(w AND mask) = match` (R72); any other word is
illegal (R77). -/
def decode (w : CmdWord) (data : CmdData) : Decoded :=
  match rowOf (opcodeOf w) with
  | none => .illegal (.unassignedOpcode (opcodeOf w))
  | some r =>
    if w &&& formatMask r.format = matchWord (opcodeOf w) then .ok (r.build w data)
    else .illegal (.unusedBitsSet (opcodeOf w))

/-! ## The encoder (R76) -/

/-- A register number as its 3-bit field. -/
def regField (r : Reg) : BitVec 3 := BitVec.ofFin (w := 3) r

/-- A limb index as the low bits of `imm12`, bits 11:2 being 0 (R71). -/
def limbField (k : LimbIx) : BitVec 12 := (BitVec.ofFin (w := 2) k).setWidth 12

/-- `(opcode << 24) | (rd << 21) | (rs1 << 18) | (rs2 << 15) | imm12` (R76). -/
def packWord (op : BitVec 8) (rd rs1 rs2 : Reg) (imm : BitVec 12) : CmdWord :=
  op.setWidth 32 <<< 24 ||| (regField rd).setWidth 32 <<< 21 ||| (regField rs1).setWidth 32 <<< 18
    ||| (regField rs2).setWidth 32 <<< 15 ||| imm.setWidth 32

/-- The command (word and data word) of an instruction; unused fields are 0 (R76), and so is an unused data word, which
may be anything (20_memory.md R56). The word of an ill-formed shift count is not meaningful. -/
def encode (i : Instr) : CmdWord × CmdData :=
  match i with
  | .nop => (packWord 0x00 0 0 0 0, 0)
  | .ldi rd imm64 => (packWord 0x01 rd 0 0 0, imm64)
  | .ldl rd k imm64 => (packWord 0x02 rd 0 0 (limbField k), imm64)
  | .ldm rd imm64 => (packWord 0x03 rd 0 0 0, imm64)
  | .rdl rs1 k => (packWord 0x04 0 rs1 0 (limbField k), 0)
  | .rdm rs1 => (packWord 0x05 0 rs1 0 0, 0)
  | .rdst => (packWord 0x06 0 0 0 0, 0)
  | .clrerr => (packWord 0x07 0 0 0 0, 0)
  | .mov rd rs1 => (packWord 0x08 rd rs1 0 0, 0)
  | .uadd rd rs1 rs2 => (packWord 0x10 rd rs1 rs2 0, 0)
  | .usub rd rs1 rs2 => (packWord 0x11 rd rs1 rs2 0, 0)
  | .uneg rd rs1 => (packWord 0x12 rd rs1 0 0, 0)
  | .uinc rd rs1 => (packWord 0x13 rd rs1 0 0, 0)
  | .udec rd rs1 => (packWord 0x14 rd rs1 0 0, 0)
  | .umul rd rs1 rs2 => (packWord 0x15 rd rs1 rs2 0, 0)
  | .udiv rd rs1 rs2 => (packWord 0x16 rd rs1 rs2 0, 0)
  | .umod rd rs1 rs2 => (packWord 0x17 rd rs1 rs2 0, 0)
  | .uand rd rs1 rs2 => (packWord 0x18 rd rs1 rs2 0, 0)
  | .uor rd rs1 rs2 => (packWord 0x19 rd rs1 rs2 0, 0)
  | .unot rd rs1 => (packWord 0x1A rd rs1 0 0, 0)
  | .ushl rd rs1 rs2 => (packWord 0x1B rd rs1 rs2 0, 0)
  | .ushr rd rs1 rs2 => (packWord 0x1C rd rs1 rs2 0, 0)
  | .ushli rd rs1 count => (packWord 0x1D rd rs1 0 (BitVec.ofNat 12 count), 0)
  | .ushri rd rs1 count => (packWord 0x1E rd rs1 0 (BitVec.ofNat 12 count), 0)
  | .ucmp rs1 rs2 => (packWord 0x1F 0 rs1 rs2 0, 0)
  | .sd64Norm rd rs1 => (packWord 0x20 rd rs1 0 0, 0)
  | .sd64Add rd rs1 rs2 => (packWord 0x21 rd rs1 rs2 0, 0)
  | .sd64Sub rd rs1 rs2 => (packWord 0x22 rd rs1 rs2 0, 0)
  | .sd64Neg rd rs1 => (packWord 0x23 rd rs1 0 0, 0)
  | .sd64Mul rd rs1 rs2 => (packWord 0x24 rd rs1 rs2 0, 0)
  | .sd64Div rd rs1 rs2 => (packWord 0x25 rd rs1 rs2 0, 0)
  | .sd64Cmp rs1 rs2 => (packWord 0x26 0 rs1 rs2 0, 0)
  | .sd64Real rs1 => (packWord 0x27 0 rs1 0 0, 0)
  | .sd64Cvtd rs1 => (packWord 0x28 0 rs1 0 0, 0)
  | .sd64Cvts rs1 => (packWord 0x29 0 rs1 0 0, 0)
  | .sd256Norm rd rs1 => (packWord 0x30 rd rs1 0 0, 0)
  | .sd256Add rd rs1 rs2 => (packWord 0x31 rd rs1 rs2 0, 0)
  | .sd256Sub rd rs1 rs2 => (packWord 0x32 rd rs1 rs2 0, 0)
  | .sd256Neg rd rs1 => (packWord 0x33 rd rs1 0 0, 0)
  | .sd256Mul rd rs1 rs2 => (packWord 0x34 rd rs1 rs2 0, 0)
  | .sd256Div rd rs1 rs2 => (packWord 0x35 rd rs1 rs2 0, 0)
  | .sd256Cmp rs1 rs2 => (packWord 0x36 0 rs1 rs2 0, 0)
  | .sd256Real rs1 => (packWord 0x37 0 rs1 0 0, 0)
  | .sd256Cvtd rs1 => (packWord 0x38 0 rs1 0 0, 0)
  | .sd256Cvts rs1 => (packWord 0x39 0 rs1 0 0, 0)

/-! ## The table's numbering of the bits -/

/-- The command whose bits are `w`, of which the first `nbits` count and the rest are 0: the command word is bits 31:0,
the data word bits 95:32 (notes/assumptions/8.md). -/
def commandOfBits (nbits w : Nat) : CmdWord × CmdData :=
  let v := w % 2 ^ nbits
  (BitVec.ofNat 32 v, BitVec.ofNat 64 (v / 2 ^ 32))

/-- The instruction that the decoder reads from those bits, `none` where it refuses. -/
def decodeTableWord (nbits w : Nat) : Option Instr :=
  match decode (commandOfBits nbits w).1 (commandOfBits nbits w).2 with
  | .ok i => some i
  | .illegal _ => none

end Sys2Proof
end

