-- ==== Sys2Proof/Config.lean ====
section
/-! DEFINITION. The configuration of the block: the record `FP` of the mantissa's arithmetic (00_scope.md R7), and the
values the spec leaves free. A free value has no body, so nothing can be proved of which value it is. -/

namespace Sys2Proof

/-- The configuration record `FP`: the floating-point arithmetic of the mantissa (R7). -/
structure FP where
  /-- `FP.add`. -/
  add : F64 → F64 → F64
  /-- `FP.mul`. -/
  mul : F64 → F64 → F64
  /-- `FP.div`. -/
  div : F64 → F64 → F64
  /-- `FP.neg`. -/
  neg : F64 → F64
  /-- `FP.abs`. -/
  abs : F64 → F64
  /-- `FP.lt`. -/
  lt : F64 → F64 → Bool
  /-- `FP.le`. -/
  le : F64 → F64 → Bool
  /-- `FP.eq`. -/
  eq : F64 → F64 → Bool
  /-- `FP.pow10`, used for arguments 0 to 308 only. -/
  pow10 : Nat → F64
  /-- `FP.to_f32`. -/
  toF32 : F64 → F32
  /-- `FP.ZERO`. -/
  zero : F64
  /-- `FP.TENTH`. -/
  tenth : F64
  /-- `FP.ONE`. -/
  one : F64
  /-- `FP.TEN`. -/
  ten : F64
  /-- `FP.MAX`. -/
  max : F64
  /-- `FP.P10[d]`, used for d = 1 to 16 only. -/
  p10 : Nat → F64
deriving Inhabited

/-- Which instantiation of `FP` a block was built with. DESIGN CHOICE (notes/assumptions/1.md): a name, held in State,
so that a statement about every state is a statement about every instantiation. -/
inductive FpSel where
  /-- the default instantiation, IEEE 754 binary64 to nearest even (R7, R190) -/
  | ieee754
  /-- any other instantiation: the record `Config.otherFp n`, of which nothing is known -/
  | other (n : Nat)
deriving DecidableEq, Repr

/-- The three operations of `FP` whose NaN results carry an unspecified pattern (93_implementation_defined.md U8). -/
inductive NanOp where
  | add
  | mul
  | div
deriving DecidableEq, Repr

/-- Every instantiation of `FP` other than the default: uninterpreted (U9, notes/assumptions/2.md). -/
opaque Config.otherFp : Nat → FP

/-- The bits from which the default `FP` forms a NaN result of an operation: free (U8, notes/assumptions/3.md). -/
opaque Config.nanBits : NanOp → F64 → F64 → F64

/-- The bits from which the default `FP.to_f32` forms the image of a NaN: free (U8, notes/assumptions/3.md). -/
opaque Config.nanBits32 : F64 → F32

/-- The number from which the default `FP.pow10(k)`, k ≥ 23, is formed: free (R191, U9, notes/assumptions/4.md). -/
opaque Config.pow10Free : Nat → Nat

/-- The three-way result of the n-th comparison with an operand whose sign is unspecified: free (U6,
notes/assumptions/6.md). -/
opaque Config.freeOrdering : Nat → Ordering

/-- The truth value of the n-th zero test of a mantissa whose sign is unspecified: free (U6, notes/assumptions/7.md). -/
opaque Config.freeZeroTest : Nat → Bool

end Sys2Proof
end

