-- ==== Sys2Proof/Machine/State.lean ====
section
/-! DEFINITION. The state of GM-CORE (10_state.md R20), with the ports through which the host drives it (20_memory.md R51) as
plain data, the reasons a step can stop, and the state after reset (10_state.md R32). -/

namespace Sys2Proof.Machine

/-- The input pins as the block samples them at one clock edge (R51, R52). -/
structure Pins where
  /-- `rst`, synchronous, active high -/
  rst : Bool
  /-- `cmd_valid` -/
  cmdValid : Bool
  /-- `cmd_word[31:0]` -/
  cmdWord : CmdWord
  /-- `cmd_data[63:0]` -/
  cmdData : CmdData
  /-- `rsp_ready` -/
  rspReady : Bool
deriving DecidableEq, Repr

/-- A response: `rsp_status[2:0]` and `rsp_data[63:0]` (R51). -/
structure Response where
  /-- 0, or the code of a fault (R270) -/
  status : BitVec 3
  /-- the result, 0 where the command has none (R56) -/
  data : BitVec 64
deriving DecidableEq, Repr

/-- The faults of R270. InvalidOperand is reserved for GM's name and never raised (R273). -/
inductive FaultCode where
  /-- raised by U.DIV, U.MOD, SD64.DIV, SD256.DIV (R271) -/
  | divisionByZero
  /-- raised by SD64.CVTD, SD256.CVTD, SD64.CVTS, SD256.CVTS (R272) -/
  | overflow
  /-- raised by nothing (R273) -/
  | invalidOperand
  /-- raised for a command word that matches no row of the table (R275) -/
  | illegalCommand
deriving DecidableEq, Repr

/-- The whole state. The first five fields are the spec's, the last four the model's own. -/
structure State where
  /-- the integer parts `x[0..7]` (R20, R22) -/
  x : Vector U256 8
  /-- the mantissa parts `m[0..7]` (R20, R30) -/
  m : Vector F64 8
  /-- `ERR`, the sticky first-fault register (R26) -/
  err : BitVec 3
  /-- `BUSY`: true from the acceptance of a command to the delivery of its response (R29, R53) -/
  busy : Bool
  /-- the response port: `some r` is `rsp_valid` = 1 with the status and data of `r`, `none` is `rsp_valid` = 0 (R51, R52) -/
  rsp : Option Response
  /-- MODEL's own: what the host will drive on the input pins, the coming edge first (notes/assumptions/10.md) -/
  pins : List Pins
  /-- MODEL's own: the responses the host has taken, oldest first (R52, notes/assumptions/10.md) -/
  received : List Response
  /-- MODEL's own: the instantiation of `FP` the block was built with (R7, notes/assumptions/1.md) -/
  fpSel : FpSel
  /-- MODEL's own: the number of the next draw of a free value (notes/assumptions/5.md) -/
  free : Nat
deriving DecidableEq, Repr

/-- Why the machine could stop with a fault. It has no constructor: the faults of the spec are responses, after which the
block goes on (R274, R277), and a hang is a run that never ends (R279). Nothing raises it. -/
inductive Fault where
deriving DecidableEq, Repr

/-- Why the model could refuse an instruction. -/
inductive Refusal where
  /-- raised by an arm of `exec` whose instruction has no meaning yet; safe, since nothing is claimed of it. No arm of
  this model raises it. -/
  | notModelled (mnemonic : String)
deriving DecidableEq, Repr

/-- The machine right after reset: every piece of state is zero (R32, R300), no command is in flight, and the host has
nothing to drive and has received nothing (notes/assumptions/10.md); `FP` is the default instantiation (R7). -/
def State.reset : State where
  x := Vector.replicate 8 0#256
  m := Vector.replicate 8 0#64
  err := 0
  busy := false
  rsp := none
  pins := []
  received := []
  fpSel := .ieee754
  free := 0

end Sys2Proof.Machine
end

