-- ==== Sys2Proof/Machine/Flags.lean ====
section
/-! DEFINITION. GM-CORE has no flag of any kind (10_state.md R29): a comparison answers in the response data and is stored
nowhere. This file holds that answer (41_u256_addsub_logic.md R129) and how the six relations are read off it
(30_encoding.md R80). -/

namespace Sys2Proof.Machine

/-- The response data of a three-way comparison: the 64-bit two's complement of −1 (LT), 0 (EQ), +1 (GT) (R129). -/
def orderingData (c : Ordering) : BitVec 64 :=
  match c with
  | .lt => 0xFFFFFFFFFFFFFFFF#64
  | .eq => 0x0000000000000000#64
  | .gt => 0x0000000000000001#64

/-- The six relations (R80). -/
inductive Relation where
  | lt
  | le
  | gt
  | ge
  | eq
  | ne
deriving DecidableEq, Repr

/-- A relation read off the three-way response data `c`: `a < b` is c = −1, `a ≤ b` is c ≠ +1, `a > b` is c = +1,
`a ≥ b` is c ≠ −1, `a = b` is c = 0, `a ≠ b` is c ≠ 0 (R80). -/
def Relation.readFrom (r : Relation) (c : BitVec 64) : Bool :=
  match r with
  | .lt => c == orderingData .lt
  | .le => c != orderingData .gt
  | .gt => c == orderingData .gt
  | .ge => c != orderingData .lt
  | .eq => c == orderingData .eq
  | .ne => c != orderingData .eq

end Sys2Proof.Machine
end

