-- ==== Sys2Proof/Machine/Ieee.lean ====
section
/-! DEFINITION. The default instantiation of `FP`: IEEE 754 binary64, round to nearest, ties to even (44_sd_normalize.md R190,
R191). Every result is computed exactly as a sign and a natural significand times a power of two, and rounded once. -/

namespace Sys2Proof.Machine

/-! ## Patterns (R190): 1 sign bit, 11 exponent bits, 52 fraction bits -/

/-- Bits 62:0 of a pattern, as a number; it grows with the magnitude. -/
def f64Magnitude (a : F64) : Nat := a.toNat % 2 ^ 63

/-- Bit 63. -/
def f64Negative (a : F64) : Bool := a.msb

/-- The magnitude of an infinity: exponent bits all 1, fraction 0. -/
def f64InfMagnitude : Nat := 0x7FF0000000000000

/-- A NaN: exponent bits all 1, fraction not 0. -/
def f64IsNan (a : F64) : Bool := f64InfMagnitude < f64Magnitude a

/-- An infinity of either sign. -/
def f64IsInf (a : F64) : Bool := f64Magnitude a == f64InfMagnitude

/-- A finite value: zero, subnormal or normal. -/
def f64IsFinite (a : F64) : Bool := f64Magnitude a < f64InfMagnitude

/-- The scale of a finite pattern: its biased exponent, 1 for zeros and subnormals. The value is
`f64Significand a * 2 ^ (f64Scale a - 1075)`, with the sign of `a`. -/
def f64Scale (a : F64) : Nat :=
  let e := f64Magnitude a / 2 ^ 52
  if e = 0 then 1 else e

/-- The significand of a finite pattern, the leading 1 of a normal value included. -/
def f64Significand (a : F64) : Nat :=
  let e := f64Magnitude a / 2 ^ 52
  let f := f64Magnitude a % 2 ^ 52
  if e = 0 then f else f + 2 ^ 52

/-- A pattern from its sign and magnitude bits. -/
def f64Pack (negative : Bool) (magnitude : Nat) : F64 :=
  BitVec.ofNat 64 (if negative then magnitude + 2 ^ 63 else magnitude)

/-! ## Rounding -/

/-- Exact values are written `n * 2 ^ (e - floatBias)` with natural `n` and `e`. -/
def floatBias : Nat := 4096

/-- A binary format: its precision, the scale of its least subnormal as an exponent of `floatBias`, and the magnitude bits
of its infinity. -/
structure FloatFormat where
  /-- bits of precision -/
  precision : Nat
  /-- `floatBias` plus the exponent of the least positive value -/
  least : Nat
  /-- the magnitude pattern of infinity -/
  infinity : Nat
deriving DecidableEq, Repr

/-- binary64: 53 bits, least positive value 2^-1074. -/
def binary64 : FloatFormat := ⟨53, floatBias - 1074, 0x7FF0000000000000⟩

/-- binary32: 24 bits, least positive value 2^-149. -/
def binary32 : FloatFormat := ⟨24, floatBias - 149, 0x7F800000⟩

/-- `n / 2 ^ s` to the nearest natural number, ties to even. -/
def roundShift (n s : Nat) : Nat :=
  let q := n / 2 ^ s
  let r := n % 2 ^ s
  if 2 ^ s < 2 * r then q + 1
  else if 2 ^ s = 2 * r then q + q % 2
  else q

/-- The magnitude bits of the value of format `f` nearest to `n * 2 ^ (e - floatBias)`, ties to even; beyond the largest
finite value, infinity. The unit in the last place is `2 ^ (u - floatBias)`; the magnitude bits of `k` units, `k` at most
`2 ^ precision`, are `(u - least) * 2 ^ (precision - 1) + k`, whether `k` is subnormal, normal, or a carry into the next
binade. -/
def roundMagnitude (f : FloatFormat) (n e : Nat) : Nat :=
  let u := Nat.max (e + (Nat.log2 n + 1) - f.precision) f.least
  let k := if u ≤ e then n * 2 ^ (e - u) else roundShift n (u - e)
  Nat.min ((u - f.least) * 2 ^ (f.precision - 1) + k) f.infinity

/-- The binary64 value nearest to a signed exact value; an exact zero takes the sign given. -/
def f64Round (negative : Bool) (n e : Nat) : F64 :=
  if n = 0 then f64Pack negative 0 else f64Pack negative (roundMagnitude binary64 n e)

/-! ## NaN results -/

/-- A NaN of a sign and payload the spec does not fix (R190, 93_implementation_defined.md U8): the exponent bits are 1, a
fraction bit is 1, the rest is free. -/
def f64FreeNan (op : NanOp) (a b : F64) : F64 :=
  let p := Config.nanBits op a b ||| 0x7FF0000000000000#64
  if f64IsNan p then p else p ||| 0x0008000000000000#64

/-! ## Operations (R190) -/

/-- The exact sum of two finite values, rounded. A sum of exactly 0 is +0, but for two zeros of one sign. -/
def f64AddFinite (a b : F64) : F64 :=
  let e := Nat.min (f64Scale a) (f64Scale b)
  let p := f64Significand a * 2 ^ (f64Scale a - e)
  let q := f64Significand b * 2 ^ (f64Scale b - e)
  let base := e + (floatBias - 1075)
  if f64Negative a = f64Negative b then f64Round (f64Negative a) (p + q) base
  else if p = q then f64Pack false 0
  else if q < p then f64Round (f64Negative a) (p - q) base
  else f64Round (f64Negative b) (q - p) base

/-- Addition. -/
def f64Add (a b : F64) : F64 :=
  if f64IsNan a || f64IsNan b then f64FreeNan .add a b
  else if f64IsInf a && f64IsInf b then
    if f64Negative a = f64Negative b then a else f64FreeNan .add a b
  else if f64IsInf a then a
  else if f64IsInf b then b
  else f64AddFinite a b

/-- Multiplication. -/
def f64Mul (a b : F64) : F64 :=
  let negative := Bool.xor (f64Negative a) (f64Negative b)
  if f64IsNan a || f64IsNan b then f64FreeNan .mul a b
  else if f64IsInf a || f64IsInf b then
    if f64Magnitude a = 0 ∨ f64Magnitude b = 0 then f64FreeNan .mul a b else f64Pack negative f64InfMagnitude
  else
    f64Round negative (f64Significand a * f64Significand b) (f64Scale a + f64Scale b + (floatBias - 2150))

/-- The quotient of two significands with enough bits for one rounding: 112 bits below the units place, and one more that
says whether anything is left. -/
def quotientWithRest (p q : Nat) : Nat :=
  let n := p * 2 ^ 112
  2 * (n / q) + (if n % q = 0 then 0 else 1)

/-- Division. -/
def f64Div (a b : F64) : F64 :=
  let negative := Bool.xor (f64Negative a) (f64Negative b)
  if f64IsNan a || f64IsNan b then f64FreeNan .div a b
  else if f64IsInf a then
    if f64IsInf b then f64FreeNan .div a b else f64Pack negative f64InfMagnitude
  else if f64IsInf b then f64Pack negative 0
  else if f64Magnitude b = 0 then
    if f64Magnitude a = 0 then f64FreeNan .div a b else f64Pack negative f64InfMagnitude
  else
    f64Round negative (quotientWithRest (f64Significand a) (f64Significand b))
      (f64Scale a + (floatBias - 113) - f64Scale b)

/-- Negation inverts bit 63 of any pattern. -/
def f64Neg (a : F64) : F64 := a ^^^ 0x8000000000000000#64

/-- The absolute value clears bit 63 of any pattern. -/
def f64Abs (a : F64) : F64 := a &&& 0x7FFFFFFFFFFFFFFF#64

/-- The order of the patterns that are not NaNs: +0 and −0 are one, and it grows with the value. -/
def f64Key (a : F64) : Int :=
  if f64Negative a then -(f64Magnitude a : Int) else (f64Magnitude a : Int)

/-- The quiet comparison `<`, false on a NaN. -/
def f64Lt (a b : F64) : Bool := !f64IsNan a && !f64IsNan b && decide (f64Key a < f64Key b)

/-- The quiet comparison `≤`, false on a NaN. -/
def f64Le (a b : F64) : Bool := !f64IsNan a && !f64IsNan b && decide (f64Key a ≤ f64Key b)

/-- The quiet comparison `=`, false on a NaN, true of +0 and −0. -/
def f64Eq (a b : F64) : Bool := !f64IsNan a && !f64IsNan b && decide (f64Key a = f64Key b)

/-- A finite positive pattern of which nothing else is known: the default `FP.pow10(k)` where the spec leaves its value
to the model's configuration (R191, U9). -/
def f64FreePower (k : Nat) : F64 := BitVec.ofNat 64 (1 + Config.pow10Free k % 0x7FEFFFFFFFFFFFFF)

/-- `FP.pow10(k)`: exactly 10^k for k = 0 to 22 (`pow10_small_exact`, R191), a free finite positive value above. -/
def f64Pow10 (k : Nat) : F64 := if k ≤ 22 then f64Round false (10 ^ k) floatBias else f64FreePower k

/-- `FP.P10[d]`, d = 1 to 16: the patterns R191 lists. Another index is never read, and no value is chosen for it. -/
def f64P10 (d : Nat) : F64 :=
  match d with
  | 1 => 0x4024000000000000#64
  | 2 => 0x4059000000000000#64
  | 3 => 0x408F400000000000#64
  | 4 => 0x40C3880000000000#64
  | 5 => 0x40F86A0000000000#64
  | 6 => 0x412E848000000000#64
  | 7 => 0x416312D000000000#64
  | 8 => 0x4197D78400000000#64
  | 9 => 0x41CDCD6500000000#64
  | 10 => 0x4202A05F20000000#64
  | 11 => 0x42374876E8000000#64
  | 12 => 0x426D1A94A2000000#64
  | 13 => 0x42A2309CE5400000#64
  | 14 => 0x42D6BCC41E900000#64
  | 15 => 0x430C6BF526340000#64
  | 16 => 0x4341C37937E08000#64
  | k => f64FreePower k

/-- A binary32 pattern from its sign and magnitude bits. -/
def f32Pack (negative : Bool) (magnitude : Nat) : F32 :=
  BitVec.ofNat 32 (if negative then magnitude + 2 ^ 31 else magnitude)

/-- The binary32 image of a NaN: a NaN whose sign and payload are free (R190, U8). -/
def f32FreeNan (a : F64) : F32 :=
  let p := Config.nanBits32 a ||| 0x7F800000#32
  if 0x7F800000 < p.toNat % 2 ^ 31 then p else p ||| 0x00400000#32

/-- `FP.to_f32`: binary64 to binary32, to nearest, ties to even (R191). -/
def f64ToF32 (a : F64) : F32 :=
  if f64IsNan a then f32FreeNan a
  else if f64IsInf a then f32Pack (f64Negative a) 0x7F800000
  else if f64Significand a = 0 then f32Pack (f64Negative a) 0
  else f32Pack (f64Negative a) (roundMagnitude binary32 (f64Significand a) (f64Scale a + (floatBias - 1075)))

/-- The default instantiation of `FP` (R7, R190, R191). -/
def ieeeFp : FP where
  add := f64Add
  mul := f64Mul
  div := f64Div
  neg := f64Neg
  abs := f64Abs
  lt := f64Lt
  le := f64Le
  eq := f64Eq
  pow10 := f64Pow10
  toF32 := f64ToF32
  zero := 0x0000000000000000#64
  tenth := 0x3FB999999999999A#64
  one := 0x3FF0000000000000#64
  ten := 0x4024000000000000#64
  max := 0x7FEFFFFFFFFFFFFF#64
  p10 := f64P10

/-- The record that a choice of instantiation names: the default, or one of which nothing is known (R7). -/
def fpOf (sel : FpSel) : FP :=
  match sel with
  | .ieee754 => ieeeFp
  | .other n => Config.otherFp n

end Sys2Proof.Machine
end

