-- ==== Sys2Proof/Machine/Operands.lean ====
section
/-! DEFINITION. Operand forms: limbs of a 256-bit value (00_scope.md R10), the two parts of a register (10_state.md R21), and
its scaled-decimal views (10_state.md R23). -/

namespace Sys2Proof.Machine

/-! ## Limbs (R10) -/

/-- Limb `k` by significance; an index above 3 reads 0 (43_u256_shift.md R170). -/
def limbAt (v : U256) (k : Nat) : Limb := v.extractLsb' (64 * k) 64

/-- `limb(v, k)` = `v[64k+63 : 64k]`: 0 is D, 3 is A. -/
def limb (v : U256) (k : LimbIx) : Limb := limbAt v k.val

/-- `with_limb(v, k, w)`: `v` with limb `k` replaced. -/
def withLimb (v : U256) (k : LimbIx) (w : Limb) : U256 :=
  (v &&& ~~~((BitVec.allOnes 64).setWidth 256 <<< (64 * k.val))) ||| (w.setWidth 256 <<< (64 * k.val))

/-- The value `(A,B,C,D)` = `A·2^192 + B·2^128 + C·2^64 + D` (R10, R12). -/
def ofLimbs (a b c d : Limb) : U256 := a ++ b ++ c ++ d

/-- `MAX256 = 2^256 − 1` (R12). -/
def max256 : U256 := BitVec.allOnes 256

/-! ## Registers (R21) -/

/-- Reads `x[i]`. -/
def State.xr (s : State) (i : Reg) : U256 := s.x[i]

/-- Reads `m[i]`. -/
def State.mr (s : State) (i : Reg) : F64 := s.m[i]

/-- The `FP` record of this block (00_scope.md R7). -/
def State.fp (s : State) : FP := fpOf s.fpSel

/-! ## The scaled-decimal view (R23) -/

/-- A scaled decimal: a mantissa and an exponent of `n` bits, 64 for SD64 and 256 for SD256. -/
structure ScaledDec (n : Nat) where
  /-- the mantissa, a 64-bit pattern -/
  mant : F64
  /-- the exponent, unsigned -/
  exp : BitVec n
deriving DecidableEq, Repr

/-- `expW(i)`: for W = 256 the whole of `x[i]`, for W = 64 its limb D, the upper limbs being ignored. -/
def State.expW (s : State) (n : Nat) (i : Reg) : BitVec n := (s.xr i).setWidth n

/-- Register `i` read as a scaled decimal. -/
def State.sd (s : State) (n : Nat) (i : Reg) : ScaledDec n := ⟨s.mr i, s.expW n i⟩

end Sys2Proof.Machine
end

