-- ==== Sys2Proof/Machine/Ops.lean ====
section
/-! DEFINITION. The operations the commands share: writing a register, responding, the fault procedure, the hang, the draws
of free values, delivery of a response and reset. There is no memory (20_memory.md R50). -/

namespace Sys2Proof.Machine

/-- What a command makes of a state. -/
abbrev Result := Host.Outcome State Fault Refusal

/-! ## Register writes (10_state.md R21) -/

/-- `x[i] <- v`. -/
def State.setX (s : State) (i : Reg) (v : U256) : State := { s with x := s.x.set i.val v i.isLt }

/-- `m[i] <- v`. -/
def State.setM (s : State) (i : Reg) (v : F64) : State := { s with m := s.m.set i.val v i.isLt }

/-- `put_sd_W(d, mant, e)`: `m[d] <- mant; x[d] <- zext_256(e)` (10_state.md R23). -/
def State.putSd {n : Nat} (s : State) (d : Reg) (v : ScaledDec n) : State :=
  (s.setM d v.mant).setX d (v.exp.setWidth 256)

/-! ## Ending a command -/

/-- `respond(status, data)`: the response stands at the port until the host takes it; the command is still in flight
(00_scope.md R13, 20_memory.md R52, R53). -/
def State.respond (s : State) (status : BitVec 3) (data : BitVec 64) : State :=
  { s with busy := true, rsp := some ⟨status, data⟩ }

/-- `respond OK`: `respond(0, 0)` (R13). -/
def State.respondOk (s : State) : State := s.respond 0 0

/-- The number of a fault in `rsp_status` and in `ERR` (60_exceptions.md R270). -/
def FaultCode.code (c : FaultCode) : BitVec 3 :=
  match c with
  | .divisionByZero => 1
  | .overflow => 2
  | .invalidOperand => 3
  | .illegalCommand => 4

/-- The fault procedure `raise F`: no register is written, `ERR` takes the code if it was 0, the response is the code with
data 0 (60_exceptions.md R274). There is no handler, vector, mode or saved program counter (R277). -/
def State.raise (s : State) (c : FaultCode) : State :=
  { s with err := if s.err = 0 then c.code else s.err }.respond c.code 0

/-- There is no return from a fault, nothing having been entered (60_exceptions.md R278); what takes the record back is
`ERR <- 0` (40_transfer_system.md R107). -/
def State.clearErr (s : State) : State := { s with err := 0 }

/-- The command never ends: BUSY stays true, no response stands at the port, no register and no `ERR` is written
(60_exceptions.md R279). Only reset changes such a state. -/
def State.hang (s : State) : State := { s with busy := true, rsp := none }

/-- Ends an SD command that writes a register: the value it computed is written, or it hangs where the computation does
not end. -/
def State.finishSd {n : Nat} (s : State) (d : Reg) (v : Option (ScaledDec n)) : State :=
  match v with
  | some v => (s.putSd d v).respondOk
  | none => s.hang

/-! ## Free values (93_implementation_defined.md U6) -/

/-- The draw used, the next one is another. -/
def State.drawn (s : State) : State := { s with free := s.free + 1 }

/-! ## The ports (20_memory.md R51 to R53, 70_reset_and_hazards.md R300) -/

/-- `cmd_ready` at an edge: BUSY is false and `rst` is 0 (R53). -/
def State.cmdReady (s : State) (p : Pins) : Bool := !s.busy && !p.rst

/-- `rsp_valid` at an edge: a response stands at the port and `rst` is 0 (R52, R300). -/
def State.rspValid (s : State) (p : Pins) : Bool := s.rsp.isSome && !p.rst

/-- The host takes the response: BUSY becomes false (R52, R53). -/
def State.deliver (s : State) (r : Response) : State :=
  { s with busy := false, rsp := none, received := s.received ++ [r] }

/-- Reset of the block: all its state takes the reset values, a command in flight, hung or not, is abandoned without a
response (10_state.md R32, 70_reset_and_hazards.md R300). The host's own lists, the choice of `FP` and the draw number are
not state of the block. -/
def State.resetBlock (s : State) : State :=
  { s with
    x := Vector.replicate 8 0#256
    m := Vector.replicate 8 0#64
    err := 0
    busy := false
    rsp := none }

end Sys2Proof.Machine
end

