-- ==== Sys2Proof/Machine/U256.lean ====
section
/-! DEFINITION. The functions of the U256 engine, and the limb-level procedures by which GM describes the hardware
(41_u256_addsub_logic.md R120, 42_u256_muldiv.md R150, R156, 43_u256_shift.md R170). For add, subtract and multiply the
modular form is the definition (R120, R150); that the procedures compute it is stated, not assumed. -/

namespace Sys2Proof.Machine

/-! ## Definitions -/

/-- `add256(a,b) = (a + b) mod 2^256` (R120). -/
def add256 (a b : U256) : U256 := a + b

/-- `sub256(a,b) = (a − b) mod 2^256` (R120). -/
def sub256 (a b : U256) : U256 := a - b

/-- `MAX256 − v`, every bit of `v` inverted (R128). -/
def not256 (v : U256) : U256 := max256 - v

/-- Two's-complement negation: invert all bits, add 1 (R123). -/
def neg256 (v : U256) : U256 := add256 (not256 v) 1

/-- `mul256(a,b) = (a · b) mod 2^256` (R150). -/
def mul256 (a b : U256) : U256 := a * b

/-- `n div d`, the floor quotient, for d ≠ 0 (R153). -/
def div256 (n d : U256) : U256 := BitVec.ofNat 256 (n.toNat / d.toNat)

/-- `n − (n div d) · d`, the matching remainder, for d ≠ 0 (R154). -/
def mod256 (n d : U256) : U256 := BitVec.ofNat 256 (n.toNat - n.toNat / d.toNat * d.toNat)

/-- `shl256(v, s) = (v · 2^s) mod 2^256`, 0 for every s ≥ 256; the count is not reduced (R170, R171). -/
def shl256 (v : U256) (s : Nat) : U256 := if s < 256 then v <<< s else 0

/-- `shr256(v, s) = v div 2^s`, logical, 0 for every s ≥ 256; the count is not reduced (R170, R171). -/
def shr256 (v : U256) (s : Nat) : U256 := if s < 256 then v >>> s else 0

/-- The comparison of the `k` lowest limbs, the highest of them first. -/
def cmpLimbs (a b : U256) (k : Nat) : Ordering :=
  match k with
  | 0 => .eq
  | k + 1 =>
    if limbAt a k < limbAt b k then .lt
    else if limbAt b k < limbAt a k then .gt
    else cmpLimbs a b k

/-- `cmp256(a,b)`: lexicographic over (A,B,C,D) as unsigned 64-bit words (R129). -/
def cmp256 (a b : U256) : Ordering := cmpLimbs a b 4

/-! ## The adder and the subtractor, limb by limb (R120) -/

/-- One limb of the adder: `s <- limb(a,k) + limb(b,k) + c`, the limb `s mod 2^64` and the carry `s div 2^64`. -/
def addLimb (a b : U256) (k : LimbIx) (c : Nat) : Limb × Nat :=
  let s := (limb a k).toNat + (limb b k).toNat + c
  (BitVec.ofNat 64 s, s / 2 ^ 64)

/-- The adder with its carry chain from D to A; the last carry is discarded. -/
def add256Limbs (a b : U256) : U256 :=
  let r0 := addLimb a b 0 0
  let r1 := addLimb a b 1 r0.2
  let r2 := addLimb a b 2 r1.2
  let r3 := addLimb a b 3 r2.2
  ofLimbs r3.1 r2.1 r1.1 r0.1

/-- One limb of the subtractor: the integer `d <- limb(a,k) − limb(b,k) − w`, the limb `d mod 2^64` and the borrow. -/
def subLimb (a b : U256) (k : LimbIx) (w : Int) : Limb × Int :=
  let d := (limb a k).toNat - (limb b k).toNat - w
  (BitVec.ofInt 64 d, if d < 0 then 1 else 0)

/-- The subtractor with its borrow chain from D to A; the last borrow is discarded. -/
def sub256Limbs (a b : U256) : U256 :=
  let r0 := subLimb a b 0 0
  let r1 := subLimb a b 1 r0.2
  let r2 := subLimb a b 2 r1.2
  let r3 := subLimb a b 3 r2.2
  ofLimbs r3.1 r2.1 r1.1 r0.1

/-! ## The schoolbook multiplier (R150) -/

/-- One partial product: `t <- r_(i+j) + limb(a,i) · limb(b,j) + carry`; limb i+j takes `t mod 2^64`, the carry is
`t div 2^64`. The accumulator is the four limbs `r_3..r_0` as one value. -/
def mulLimb (a b : U256) (i : Nat) (acc : U256 × Nat) (j : Nat) : U256 × Nat :=
  let t := (limbAt acc.1 (i + j)).toNat + (limbAt a i).toNat * (limbAt b j).toNat + acc.2
  (withLimb acc.1 (Fin.ofNat 4 (i + j)) (BitVec.ofNat 64 t), t / 2 ^ 64)

/-- The inner loop, j = 0 .. 3 − i; the carry left over belongs to limb 4 and is discarded. -/
def mulRow (a b : U256) (r : U256) (i : Nat) : U256 := ((List.range (4 - i)).foldl (mulLimb a b i) (r, 0)).1

/-- The schoolbook procedure `mul256(a, b)`. -/
def mul256Limbs (a b : U256) : U256 := (List.range 4).foldl (mulRow a b) 0

/-! ## The reference divider (R156) -/

/-- The loop for the bits below `i`, from the highest down: `r <- 2·r + n[i:i]; if r ≥ d: r <- r − d; q <- q + 2^i`. -/
def divBits (n d : U256) (i q r : Nat) : Nat × Nat :=
  match i with
  | 0 => (q, r)
  | i + 1 =>
    let r := 2 * r + (n.getLsbD i).toNat
    if d.toNat ≤ r then divBits n d i (q + 2 ^ i) (r - d.toNat) else divBits n d i q r

/-- `divmod256(n, d)`, for d ≠ 0: quotient and remainder. -/
def divmod256 (n d : U256) : Nat × Nat := divBits n d 256 0 0

/-! ## The barrel shifter, limb by limb (R170) -/

/-- Limb `k` of `shl256(v, s)` for `s = 64·q + t`: `(limb(v, k−q) << t) OR (limb(v, k−q−1) >> (64−t))`, a limb with
negative index reading as 0 and the second term absent when t = 0. -/
def shlLimb (v : U256) (s k : Nat) : Limb :=
  let q := s / 64
  let t := s % 64
  let low := if q ≤ k then limbAt v (k - q) <<< t else 0
  let high := if q + 1 ≤ k ∧ t ≠ 0 then limbAt v (k - q - 1) >>> (64 - t) else 0
  low ||| high

/-- `shl256(v, s)` for s < 256, in limbs. -/
def shl256Limbs (v : U256) (s : Nat) : U256 := ofLimbs (shlLimb v s 3) (shlLimb v s 2) (shlLimb v s 1) (shlLimb v s 0)

/-- Limb `k` of `shr256(v, s)` for `s = 64·q + t`: `(limb(v, k+q) >> t) OR (limb(v, k+q+1) << (64−t))`, a limb with index
above 3 reading as 0 and the second term absent when t = 0. -/
def shrLimb (v : U256) (s k : Nat) : Limb :=
  let q := s / 64
  let t := s % 64
  let high := if t ≠ 0 then limbAt v (k + q + 1) <<< (64 - t) else 0
  limbAt v (k + q) >>> t ||| high

/-- `shr256(v, s)` for s < 256, in limbs. -/
def shr256Limbs (v : U256) (s : Nat) : U256 := ofLimbs (shrLimb v s 3) (shrLimb v s 2) (shrLimb v s 1) (shrLimb v s 0)

end Sys2Proof.Machine
end

