-- ==== Sys2Proof/Machine/AddSubLogic.lean ====
section
/-! DEFINITION. U256 add, subtract, negate, increment, decrement, bitwise and compare (41_u256_addsub_logic.md R121 to R129).
No mantissa is read or written, no carry is recorded, none of them faults. -/

namespace Sys2Proof.Machine

/-- Ends a U256 command that writes `x[rd]`. -/
def State.finishX (s : State) (rd : Reg) (v : U256) : Result := .next (s.setX rd v).respondOk

/-- `U.ADD rd, rs1, rs2` (R121). -/
def execUadd (rd rs1 rs2 : Reg) (s : State) : Result := s.finishX rd (add256 (s.xr rs1) (s.xr rs2))

/-- `U.SUB rd, rs1, rs2` (R122). -/
def execUsub (rd rs1 rs2 : Reg) (s : State) : Result := s.finishX rd (sub256 (s.xr rs1) (s.xr rs2))

/-- `U.NEG rd, rs1`: `add256(MAX256 − x[rs1], 1)` (R123). -/
def execUneg (rd rs1 : Reg) (s : State) : Result := s.finishX rd (neg256 (s.xr rs1))

/-- `U.INC rd, rs1` (R124). -/
def execUinc (rd rs1 : Reg) (s : State) : Result := s.finishX rd (add256 (s.xr rs1) 1)

/-- `U.DEC rd, rs1` (R125). -/
def execUdec (rd rs1 : Reg) (s : State) : Result := s.finishX rd (sub256 (s.xr rs1) 1)

/-- `U.AND rd, rs1, rs2` (R126). -/
def execUand (rd rs1 rs2 : Reg) (s : State) : Result := s.finishX rd (s.xr rs1 &&& s.xr rs2)

/-- `U.OR rd, rs1, rs2` (R127). -/
def execUor (rd rs1 rs2 : Reg) (s : State) : Result := s.finishX rd (s.xr rs1 ||| s.xr rs2)

/-- `U.NOT rd, rs1` (R128). -/
def execUnot (rd rs1 : Reg) (s : State) : Result := s.finishX rd (not256 (s.xr rs1))

/-- `U.CMP rs1, rs2`: the result is in the response data, no state is written (R129). -/
def execUcmp (rs1 rs2 : Reg) (s : State) : Result := .next (s.respond 0 (orderingData (cmp256 (s.xr rs1) (s.xr rs2))))

end Sys2Proof.Machine
end

