-- ==== Sys2Proof/Machine/MulDiv.lean ====
section
/-! DEFINITION. U256 multiply, divide and modulo (42_u256_muldiv.md R151, R153, R154). -/

namespace Sys2Proof.Machine

/-- `U.MUL rd, rs1, rs2`: the low 256 bits of the product (R151). -/
def execUmul (rd rs1 rs2 : Reg) (s : State) : Result := s.finishX rd (mul256 (s.xr rs1) (s.xr rs2))

/-- `U.DIV rd, rs1, rs2`: DivisionByZero where the divisor is 0, else the floor quotient (R153). -/
def execUdiv (rd rs1 rs2 : Reg) (s : State) : Result :=
  if s.xr rs2 = 0 then .next (s.raise .divisionByZero) else s.finishX rd (div256 (s.xr rs1) (s.xr rs2))

/-- `U.MOD rd, rs1, rs2`: DivisionByZero where the divisor is 0, else the matching remainder (R154). -/
def execUmod (rd rs1 rs2 : Reg) (s : State) : Result :=
  if s.xr rs2 = 0 then .next (s.raise .divisionByZero) else s.finishX rd (mod256 (s.xr rs1) (s.xr rs2))

end Sys2Proof.Machine
end

