-- ==== Sys2Proof/Machine/Decimal.lean ====
section
/-! DEFINITION. The functions of the scaled-decimal engine: sign, normalization, aligned addition, comparison and RealValue
(44_sd_normalize.md R192, R193; 45_sd_arith.md R220; 46_sd_compare_convert.md R240, R243). Each is written for any `FP` record
and any exponent width `n`; the commands use n = 64 and n = 256, so `+` and `-` on exponents are `addW` and `subW`
(00_scope.md R11). -/

namespace Sys2Proof.Machine

/-! ## Sign (R192) -/

/-- The sign of a scaled decimal. -/
inductive Sign where
  | negative
  | zero
  | positive
deriving DecidableEq, Repr

/-- −1, 0, +1. -/
def Sign.toInt (g : Sign) : Int :=
  match g with
  | .negative => -1
  | .zero => 0
  | .positive => 1

/-- `sign(mant)`; `none` where the spec leaves it unspecified, which under the default `FP` is a NaN (R192, R199 (c)). -/
def sign (fp : FP) (mant : F64) : Option Sign :=
  if fp.eq mant fp.zero then some .zero
  else if fp.lt fp.zero mant then some .positive
  else if fp.lt mant fp.zero then some .negative
  else none

/-! ## Normalization (R193) -/

/-- How many patterns a mantissa can take. A loop that has looked at so many mantissas without ending has met one of them
twice, so it never ends (DEDUCED, notes/assumptions/12.md). -/
def loopBound : Nat := 2 ^ 64

/-- Step 1: while |mant| ≥ 1.0, divide by 10 and increment the exponent. The answer is `none` where the loop never ends:
where a step leaves the mantissa as it was, or where `fuel` mantissas have been looked at. -/
def divideLoop {n : Nat} (fp : FP) (fuel : Nat) (v : ScaledDec n) : Option (ScaledDec n) :=
  match fuel with
  | 0 => none
  | fuel + 1 =>
    if fp.le fp.one (fp.abs v.mant) then
      let mant := fp.div v.mant fp.ten
      if mant = v.mant then none else divideLoop fp fuel ⟨mant, v.exp + 1⟩
    else some v

/-- Step 2: while 0 ≤ mant < 0.1, multiply by 10 and decrement the exponent; `none` as in step 1. -/
def multiplyLoop {n : Nat} (fp : FP) (fuel : Nat) (v : ScaledDec n) : Option (ScaledDec n) :=
  match fuel with
  | 0 => none
  | fuel + 1 =>
    if fp.le fp.zero v.mant && fp.lt v.mant fp.tenth then
      let mant := fp.mul v.mant fp.ten
      if mant = v.mant then none else multiplyLoop fp fuel ⟨mant, v.exp - 1⟩
    else some v

/-- `normW(mant, e)`: a mantissa equal to 0 is returned unchanged (step 0); then step 1, and step 2 on what step 1 left.
`none` where it never ends (R193, R199 (a)). -/
def normalize {n : Nat} (fp : FP) (v : ScaledDec n) : Option (ScaledDec n) :=
  if fp.eq v.mant fp.zero then some v
  else
    match divideLoop fp loopBound v with
    | some w => multiplyLoop fp loopBound w
    | none => none

/-! ## Aligned addition (R220) -/

/-- The alignment cutoff, inclusive (00_scope.md R5). -/
def alignmentCutoff : Nat := 16

/-- `sdaddW(a, b)`: `big` is the operand with the larger exponent; beyond the cutoff it is returned bit for bit, not
normalized. The scaling is one division by the exact value 10^delta. -/
def alignedAdd {n : Nat} (fp : FP) (a b : ScaledDec n) : Option (ScaledDec n) :=
  if a.exp = b.exp then normalize fp ⟨fp.add a.mant b.mant, a.exp⟩
  else
    let big := if b.exp < a.exp then a else b
    let small := if b.exp < a.exp then b else a
    let delta := big.exp - small.exp
    if delta.toNat ≤ alignmentCutoff then
      normalize fp ⟨fp.add big.mant (fp.div small.mant (fp.p10 delta.toNat)), big.exp⟩
    else some big

/-- `(FP.neg(mant), e)`: the sign only, the exponent untouched (R198, R222). -/
def negateSd {n : Nat} (fp : FP) (v : ScaledDec n) : ScaledDec n := ⟨fp.neg v.mant, v.exp⟩

/-- Mantissas multiply, exponents add, then normalize (R223). -/
def multiplySd {n : Nat} (fp : FP) (a b : ScaledDec n) : Option (ScaledDec n) :=
  normalize fp ⟨fp.mul a.mant b.mant, a.exp + b.exp⟩

/-- Mantissas divide, exponents subtract, then normalize; for a divisor that is not zero (R224). -/
def divideSd {n : Nat} (fp : FP) (a b : ScaledDec n) : Option (ScaledDec n) :=
  normalize fp ⟨fp.div a.mant b.mant, a.exp - b.exp⟩

/-! ## Comparison (R240) -/

/-- `sdcmpW(a, b)`: by sign, then by exponent (not inverted for two negatives, as the source has it), then by mantissa.
`none` where the sign of an operand is unspecified (R199 (c)). -/
def compareSd {n : Nat} (fp : FP) (a b : ScaledDec n) : Option Ordering :=
  match sign fp a.mant, sign fp b.mant with
  | some sa, some sb =>
    some
      (if sa ≠ sb then (if sa.toInt < sb.toInt then .lt else .gt)
      else if sa = .zero then .eq
      else if a.exp ≠ b.exp then (if a.exp < b.exp then .lt else .gt)
      else if fp.lt a.mant b.mant then .lt
      else if fp.lt b.mant a.mant then .gt
      else .eq)
  | _, _ => none

/-! ## RealValue and the conversion boundaries (R243, R246, R247; 00_scope.md R5) -/

/-- The largest exponent that RealValue computes. -/
def realLimit : Nat := 308

/-- The largest exponent that converts to a 64-bit float. -/
def cvtdLimit : Nat := 307

/-- The largest exponent that converts to a 32-bit float. -/
def cvtsLimit : Nat := 37

/-- `realW(mant, e)`: `mant × 10^e`, or `FP.MAX`, positive whatever the mantissa, for e > 308 (R243). -/
def realValue {n : Nat} (fp : FP) (v : ScaledDec n) : F64 :=
  if realLimit < v.exp.toNat then fp.max else fp.mul v.mant (fp.pow10 v.exp.toNat)

end Sys2Proof.Machine
end

