-- ==== Sys2Proof/Machine/SdArith.lean ====
section
/-! DEFINITION. Scaled-decimal normalization, negation and arithmetic (44_sd_normalize.md R197, R198; 45_sd_arith.md R221 to
R224). Each command is written once for an exponent width `n` and instantiated at 64 and 256; sources are read as they stand,
not normalized first (10_state.md R24). -/

namespace Sys2Proof.Machine

/-! ## The commands for any width -/

/-- `SDW.NORM rd, rs1`: `normW` of the source (R197). -/
def sdNorm (n : Nat) (rd rs1 : Reg) (s : State) : Result := .next (s.finishSd rd (normalize s.fp (s.sd n rs1)))

/-- `SDW.NEG rd, rs1`: the mantissa's sign, nothing else; no normalization (R196, R198). -/
def sdNeg (n : Nat) (rd rs1 : Reg) (s : State) : Result := .next (s.putSd rd (negateSd s.fp (s.sd n rs1))).respondOk

/-- `SDW.ADD rd, rs1, rs2` (R221). -/
def sdAdd (n : Nat) (rd rs1 rs2 : Reg) (s : State) : Result :=
  .next (s.finishSd rd (alignedAdd s.fp (s.sd n rs1) (s.sd n rs2)))

/-- `SDW.SUB rd, rs1, rs2`: `a + (−b)` (R222). -/
def sdSub (n : Nat) (rd rs1 rs2 : Reg) (s : State) : Result :=
  .next (s.finishSd rd (alignedAdd s.fp (s.sd n rs1) (negateSd s.fp (s.sd n rs2))))

/-- `SDW.MUL rd, rs1, rs2` (R223). -/
def sdMul (n : Nat) (rd rs1 rs2 : Reg) (s : State) : Result :=
  .next (s.finishSd rd (multiplySd s.fp (s.sd n rs1) (s.sd n rs2)))

/-- The zero test of a mantissa, and the state after it: where the sign is unspecified the test may go either way, a free
value (R199 (c), U6, notes/assumptions/7.md). -/
def State.zeroTest (s : State) (mant : F64) : Bool × State :=
  match sign s.fp mant with
  | some g => (g == .zero, s)
  | none => (Config.freeZeroTest s.free, s.drawn)

/-- `SDW.DIV rd, rs1, rs2`: DivisionByZero where the divisor's mantissa is zero, else the normalized quotient (R224,
60_exceptions.md R271). -/
def sdDiv (n : Nat) (rd rs1 rs2 : Reg) (s : State) : Result :=
  let test := s.zeroTest (s.mr rs2)
  if test.1 then .next (test.2.raise .divisionByZero)
  else .next (test.2.finishSd rd (divideSd s.fp (s.sd n rs1) (s.sd n rs2)))

/-! ## The instructions -/

/-- `SD64.NORM rd, rs1` (R197). -/
def execSd64Norm (rd rs1 : Reg) (s : State) : Result := sdNorm 64 rd rs1 s

/-- `SD64.NEG rd, rs1` (R198). -/
def execSd64Neg (rd rs1 : Reg) (s : State) : Result := sdNeg 64 rd rs1 s

/-- `SD64.ADD rd, rs1, rs2` (R221). -/
def execSd64Add (rd rs1 rs2 : Reg) (s : State) : Result := sdAdd 64 rd rs1 rs2 s

/-- `SD64.SUB rd, rs1, rs2` (R222). -/
def execSd64Sub (rd rs1 rs2 : Reg) (s : State) : Result := sdSub 64 rd rs1 rs2 s

/-- `SD64.MUL rd, rs1, rs2` (R223). -/
def execSd64Mul (rd rs1 rs2 : Reg) (s : State) : Result := sdMul 64 rd rs1 rs2 s

/-- `SD64.DIV rd, rs1, rs2` (R224). -/
def execSd64Div (rd rs1 rs2 : Reg) (s : State) : Result := sdDiv 64 rd rs1 rs2 s

/-- `SD256.NORM rd, rs1` (R197). -/
def execSd256Norm (rd rs1 : Reg) (s : State) : Result := sdNorm 256 rd rs1 s

/-- `SD256.NEG rd, rs1` (R198). -/
def execSd256Neg (rd rs1 : Reg) (s : State) : Result := sdNeg 256 rd rs1 s

/-- `SD256.ADD rd, rs1, rs2` (R221). -/
def execSd256Add (rd rs1 rs2 : Reg) (s : State) : Result := sdAdd 256 rd rs1 rs2 s

/-- `SD256.SUB rd, rs1, rs2` (R222). -/
def execSd256Sub (rd rs1 rs2 : Reg) (s : State) : Result := sdSub 256 rd rs1 rs2 s

/-- `SD256.MUL rd, rs1, rs2` (R223). -/
def execSd256Mul (rd rs1 rs2 : Reg) (s : State) : Result := sdMul 256 rd rs1 rs2 s

/-- `SD256.DIV rd, rs1, rs2` (R224). -/
def execSd256Div (rd rs1 rs2 : Reg) (s : State) : Result := sdDiv 256 rd rs1 rs2 s

end Sys2Proof.Machine
end

