-- ==== Sys2Proof/Machine/SdConvert.lean ====
section
/-! DEFINITION. Scaled-decimal compare, RealValue and narrowing conversions (46_sd_compare_convert.md R241, R245 to R247).
None of them has a destination register, none hangs. -/

namespace Sys2Proof.Machine

/-! ## The commands for any width -/

/-- `SDW.CMP rs1, rs2`: the three-way result in the response data; where the sign of an operand is unspecified, any of the
three, a free value (R241, R199 (c), U6, notes/assumptions/6.md). -/
def sdCmp (n : Nat) (rs1 rs2 : Reg) (s : State) : Result :=
  match compareSd s.fp (s.sd n rs1) (s.sd n rs2) with
  | some c => .next (s.respond 0 (orderingData c))
  | none => .next (s.drawn.respond 0 (orderingData (Config.freeOrdering s.free)))

/-- `SDW.REAL rs1`: never a fault (R245). -/
def sdReal (n : Nat) (rs1 : Reg) (s : State) : Result := .next (s.respond 0 (realValue s.fp (s.sd n rs1)))

/-- A narrowing conversion: a zero-sign source gives the target's zero whatever the exponent, tested first; then an exponent
above the boundary is Overflow; else the RealValue in the target's form (R246, R247). -/
def sdConvert (n limit : Nat) (targetZero : BitVec 64) (narrow : F64 → BitVec 64) (rs1 : Reg) (s : State) : Result :=
  let test := s.zeroTest (s.mr rs1)
  if test.1 then .next (test.2.respond 0 targetZero)
  else if limit < (s.expW n rs1).toNat then .next (test.2.raise .overflow)
  else .next (test.2.respond 0 (narrow (realValue s.fp (s.sd n rs1))))

/-- `SDW.CVTD rs1`: to a 64-bit float (R246). -/
def sdCvtd (n : Nat) (rs1 : Reg) (s : State) : Result := sdConvert n cvtdLimit s.fp.zero (fun v => v) rs1 s

/-- `SDW.CVTS rs1`: to a 32-bit float, in `rsp_data[31:0]` with bits 63:32 zero (R247). -/
def sdCvts (n : Nat) (rs1 : Reg) (s : State) : Result :=
  sdConvert n cvtsLimit 0 (fun v => (s.fp.toF32 v).setWidth 64) rs1 s

/-! ## The instructions -/

/-- `SD64.CMP rs1, rs2` (R241). -/
def execSd64Cmp (rs1 rs2 : Reg) (s : State) : Result := sdCmp 64 rs1 rs2 s

/-- `SD64.REAL rs1` (R245). -/
def execSd64Real (rs1 : Reg) (s : State) : Result := sdReal 64 rs1 s

/-- `SD64.CVTD rs1` (R246). -/
def execSd64Cvtd (rs1 : Reg) (s : State) : Result := sdCvtd 64 rs1 s

/-- `SD64.CVTS rs1` (R247). -/
def execSd64Cvts (rs1 : Reg) (s : State) : Result := sdCvts 64 rs1 s

/-- `SD256.CMP rs1, rs2` (R241). -/
def execSd256Cmp (rs1 rs2 : Reg) (s : State) : Result := sdCmp 256 rs1 rs2 s

/-- `SD256.REAL rs1` (R245). -/
def execSd256Real (rs1 : Reg) (s : State) : Result := sdReal 256 rs1 s

/-- `SD256.CVTD rs1` (R246). -/
def execSd256Cvtd (rs1 : Reg) (s : State) : Result := sdCvtd 256 rs1 s

/-- `SD256.CVTS rs1` (R247). -/
def execSd256Cvts (rs1 : Reg) (s : State) : Result := sdCvts 256 rs1 s

end Sys2Proof.Machine
end

