-- ==== Sys2Proof/Machine/Shift.lean ====
section
/-! DEFINITION. U256 logical shifts (43_u256_shift.md R172 to R175). -/

namespace Sys2Proof.Machine

/-- The count of the register forms: the least-significant limb of `x[rs2]`, the other limbs ignored (R172, R173). -/
def State.shiftCount (s : State) (rs2 : Reg) : Nat := (limb (s.xr rs2) 0).toNat

/-- `U.SHL rd, rs1, rs2` (R172). -/
def execUshl (rd rs1 rs2 : Reg) (s : State) : Result := s.finishX rd (shl256 (s.xr rs1) (s.shiftCount rs2))

/-- `U.SHR rd, rs1, rs2` (R173). -/
def execUshr (rd rs1 rs2 : Reg) (s : State) : Result := s.finishX rd (shr256 (s.xr rs1) (s.shiftCount rs2))

/-- `U.SHLI rd, rs1, #imm12` (R174). -/
def execUshli (rd rs1 : Reg) (count : Nat) (s : State) : Result := s.finishX rd (shl256 (s.xr rs1) count)

/-- `U.SHRI rd, rs1, #imm12` (R175). -/
def execUshri (rd rs1 : Reg) (count : Nat) (s : State) : Result := s.finishX rd (shr256 (s.xr rs1) count)

end Sys2Proof.Machine
end

