-- ==== Sys2Proof/Machine/Transfer.lean ====
section
/-! DEFINITION. Transfer and system commands (40_transfer_system.md R100 to R108). -/

namespace Sys2Proof.Machine

/-- `NOP`: `respond OK` (R100). -/
def execNop (s : State) : Result := .next s.respondOk

/-- `LDI rd, #imm64`: `x[rd] <- zext_256(cmd_data)` (R101). -/
def execLdi (rd : Reg) (imm64 : CmdData) (s : State) : Result := .next (s.setX rd (imm64.setWidth 256)).respondOk

/-- `LDL rd, k, #imm64`: `x[rd] <- with_limb(x[rd], k, cmd_data)` (R102). -/
def execLdl (rd : Reg) (k : LimbIx) (imm64 : CmdData) (s : State) : Result :=
  .next (s.setX rd (withLimb (s.xr rd) k imm64)).respondOk

/-- `LDM rd, #imm64`: `m[rd] <- cmd_data`, any pattern, unchecked (R103). -/
def execLdm (rd : Reg) (imm64 : CmdData) (s : State) : Result := .next (s.setM rd imm64).respondOk

/-- `RDL rs1, k`: `respond(0, limb(x[rs1], k))` (R104). -/
def execRdl (rs1 : Reg) (k : LimbIx) (s : State) : Result := .next (s.respond 0 (limb (s.xr rs1) k))

/-- `RDM rs1`: `respond(0, m[rs1])` (R105). -/
def execRdm (rs1 : Reg) (s : State) : Result := .next (s.respond 0 (s.mr rs1))

/-- `RDST`: `respond(0, zext_64(ERR))`, `ERR` not cleared (R106). -/
def execRdst (s : State) : Result := .next (s.respond 0 (s.err.setWidth 64))

/-- `CLRERR`: `ERR <- 0` (R107). -/
def execClrerr (s : State) : Result := .next s.clearErr.respondOk

/-- `MOV rd, rs1`: both parts, read before either is written (R108). -/
def execMov (rd rs1 : Reg) (s : State) : Result := .next ((s.setX rd (s.xr rs1)).setM rd (s.mr rs1)).respondOk

end Sys2Proof.Machine
end

