-- ==== Sys2Proof/Machine/Dispatch.lean ====
section
/-! DEFINITION. The meaning of every instruction, one arm a constructor. -/

namespace Sys2Proof.Machine

/-- The execution of an instruction. -/
def exec (i : Instr) (s : State) : Host.Outcome State Fault Refusal :=
  match i with
  | .nop => Sys2Proof.Machine.execNop s
  | .ldi rd imm64 => Sys2Proof.Machine.execLdi rd imm64 s
  | .ldl rd k imm64 => Sys2Proof.Machine.execLdl rd k imm64 s
  | .ldm rd imm64 => Sys2Proof.Machine.execLdm rd imm64 s
  | .rdl rs1 k => Sys2Proof.Machine.execRdl rs1 k s
  | .rdm rs1 => Sys2Proof.Machine.execRdm rs1 s
  | .rdst => Sys2Proof.Machine.execRdst s
  | .clrerr => Sys2Proof.Machine.execClrerr s
  | .mov rd rs1 => Sys2Proof.Machine.execMov rd rs1 s
  | .uadd rd rs1 rs2 => Sys2Proof.Machine.execUadd rd rs1 rs2 s
  | .usub rd rs1 rs2 => Sys2Proof.Machine.execUsub rd rs1 rs2 s
  | .uneg rd rs1 => Sys2Proof.Machine.execUneg rd rs1 s
  | .uinc rd rs1 => Sys2Proof.Machine.execUinc rd rs1 s
  | .udec rd rs1 => Sys2Proof.Machine.execUdec rd rs1 s
  | .umul rd rs1 rs2 => Sys2Proof.Machine.execUmul rd rs1 rs2 s
  | .udiv rd rs1 rs2 => Sys2Proof.Machine.execUdiv rd rs1 rs2 s
  | .umod rd rs1 rs2 => Sys2Proof.Machine.execUmod rd rs1 rs2 s
  | .uand rd rs1 rs2 => Sys2Proof.Machine.execUand rd rs1 rs2 s
  | .uor rd rs1 rs2 => Sys2Proof.Machine.execUor rd rs1 rs2 s
  | .unot rd rs1 => Sys2Proof.Machine.execUnot rd rs1 s
  | .ushl rd rs1 rs2 => Sys2Proof.Machine.execUshl rd rs1 rs2 s
  | .ushr rd rs1 rs2 => Sys2Proof.Machine.execUshr rd rs1 rs2 s
  | .ushli rd rs1 count => Sys2Proof.Machine.execUshli rd rs1 count s
  | .ushri rd rs1 count => Sys2Proof.Machine.execUshri rd rs1 count s
  | .ucmp rs1 rs2 => Sys2Proof.Machine.execUcmp rs1 rs2 s
  | .sd64Norm rd rs1 => Sys2Proof.Machine.execSd64Norm rd rs1 s
  | .sd64Add rd rs1 rs2 => Sys2Proof.Machine.execSd64Add rd rs1 rs2 s
  | .sd64Sub rd rs1 rs2 => Sys2Proof.Machine.execSd64Sub rd rs1 rs2 s
  | .sd64Neg rd rs1 => Sys2Proof.Machine.execSd64Neg rd rs1 s
  | .sd64Mul rd rs1 rs2 => Sys2Proof.Machine.execSd64Mul rd rs1 rs2 s
  | .sd64Div rd rs1 rs2 => Sys2Proof.Machine.execSd64Div rd rs1 rs2 s
  | .sd64Cmp rs1 rs2 => Sys2Proof.Machine.execSd64Cmp rs1 rs2 s
  | .sd64Real rs1 => Sys2Proof.Machine.execSd64Real rs1 s
  | .sd64Cvtd rs1 => Sys2Proof.Machine.execSd64Cvtd rs1 s
  | .sd64Cvts rs1 => Sys2Proof.Machine.execSd64Cvts rs1 s
  | .sd256Norm rd rs1 => Sys2Proof.Machine.execSd256Norm rd rs1 s
  | .sd256Add rd rs1 rs2 => Sys2Proof.Machine.execSd256Add rd rs1 rs2 s
  | .sd256Sub rd rs1 rs2 => Sys2Proof.Machine.execSd256Sub rd rs1 rs2 s
  | .sd256Neg rd rs1 => Sys2Proof.Machine.execSd256Neg rd rs1 s
  | .sd256Mul rd rs1 rs2 => Sys2Proof.Machine.execSd256Mul rd rs1 rs2 s
  | .sd256Div rd rs1 rs2 => Sys2Proof.Machine.execSd256Div rd rs1 rs2 s
  | .sd256Cmp rs1 rs2 => Sys2Proof.Machine.execSd256Cmp rs1 rs2 s
  | .sd256Real rs1 => Sys2Proof.Machine.execSd256Real rs1 s
  | .sd256Cvtd rs1 => Sys2Proof.Machine.execSd256Cvtd rs1 s
  | .sd256Cvts rs1 => Sys2Proof.Machine.execSd256Cvts rs1 s

end Sys2Proof.Machine
end

