-- ==== Sys2Proof/Machine/Port.lean ====
section
/-! DEFINITION. The command and response port (20_memory.md R51 to R53, 70_reset_and_hazards.md R300): what happens at one
clock edge. An edge at which the block is still computing is not shown, since a model carries no time (R54, R308,
notes/assumptions/9.md): the list of pin samples goes from the acceptance of a command to an edge at which its response is
offered, or, of a command that hangs, at which none is. -/

namespace Sys2Proof.Machine

/-- An accepted command: a word that selects a row is executed, any other raises IllegalCommand before any register is read
(30_encoding.md R77, 60_exceptions.md R275, R276). -/
def runCommand (w : CmdWord) (data : CmdData) (s : State) : Result :=
  match decode w data with
  | .ok i => exec i s
  | .illegal _ => .next (s.raise .illegalCommand)

/-- One clock edge with the pins `p`: reset (R300); else the acceptance of a command (R52, R53); else the delivery of a
response (R52); else nothing. -/
def clockEdge (p : Pins) (s : State) : Result :=
  if p.rst then .next s.resetBlock
  else if s.cmdReady p && p.cmdValid then runCommand p.cmdWord p.cmdData s
  else
    match s.rsp with
    | some r => if s.rspValid p && p.rspReady then .next (s.deliver r) else .next s
    | none => .next s

/-- The next pin sample the host drives, and the state without it; a host that drives nothing leaves the block idle with all
state held (60_exceptions.md R282). -/
def nextEdge (s : State) : Result :=
  match s.pins with
  | [] => .next s
  | p :: rest => clockEdge p { s with pins := rest }

/-- The pins of a command offered to the block. -/
def commandPins (w : CmdWord) (data : CmdData) : Pins := ⟨false, true, w, data, true⟩

/-- The pins of a host that only takes a response. -/
def takePins : Pins := ⟨false, false, 0, 0, true⟩

/-- The pins of a host that asserts reset. -/
def resetPins : Pins := ⟨true, false, 0, 0, false⟩

/-- The host offers a command at the coming edge, to an idle block. -/
def State.offer (s : State) (w : CmdWord) (data : CmdData) : State :=
  { s with busy := false, rsp := none, pins := commandPins w data :: s.pins }

end Sys2Proof.Machine
end

