-- ==== Sys2Proof/Machine/Step.lean ====
section
/-! DEFINITION. One step of the machine: one clock edge. -/

namespace Sys2Proof.Machine

/-- One step: the coming clock edge (20_memory.md R52). -/
def step (s : State) : Host.Outcome State Fault Refusal := nextEdge s

/-- The state whose next step accepts and runs the command of those bits: the block idle, the command at the input pins
(notes/assumptions/8.md, notes/assumptions/10.md). -/
def State.withFetchWord (s : State) (nbits w : Nat) : State :=
  s.offer (commandOfBits nbits w).1 (commandOfBits nbits w).2

end Sys2Proof.Machine
end

