-- ==== Sys2Proof/Machine/Assembly.lean ====
section
/-! DEFINITION. Assembler text and pseudo-commands (30_encoding.md R78, R79). Neither is architectural: the text prints a
command, a pseudo-command is a fixed sequence of commands. -/

namespace Sys2Proof.Machine

/-! ## Text (R78) -/

/-- The mnemonic of a command (R76). -/
def mnemonic (i : Instr) : String :=
  match i with
  | .nop => "NOP"
  | .ldi _ _ => "LDI"
  | .ldl _ _ _ => "LDL"
  | .ldm _ _ => "LDM"
  | .rdl _ _ => "RDL"
  | .rdm _ => "RDM"
  | .rdst => "RDST"
  | .clrerr => "CLRERR"
  | .mov _ _ => "MOV"
  | .uadd _ _ _ => "U.ADD"
  | .usub _ _ _ => "U.SUB"
  | .uneg _ _ => "U.NEG"
  | .uinc _ _ => "U.INC"
  | .udec _ _ => "U.DEC"
  | .umul _ _ _ => "U.MUL"
  | .udiv _ _ _ => "U.DIV"
  | .umod _ _ _ => "U.MOD"
  | .uand _ _ _ => "U.AND"
  | .uor _ _ _ => "U.OR"
  | .unot _ _ => "U.NOT"
  | .ushl _ _ _ => "U.SHL"
  | .ushr _ _ _ => "U.SHR"
  | .ushli _ _ _ => "U.SHLI"
  | .ushri _ _ _ => "U.SHRI"
  | .ucmp _ _ => "U.CMP"
  | .sd64Norm _ _ => "SD64.NORM"
  | .sd64Add _ _ _ => "SD64.ADD"
  | .sd64Sub _ _ _ => "SD64.SUB"
  | .sd64Neg _ _ => "SD64.NEG"
  | .sd64Mul _ _ _ => "SD64.MUL"
  | .sd64Div _ _ _ => "SD64.DIV"
  | .sd64Cmp _ _ => "SD64.CMP"
  | .sd64Real _ => "SD64.REAL"
  | .sd64Cvtd _ => "SD64.CVTD"
  | .sd64Cvts _ => "SD64.CVTS"
  | .sd256Norm _ _ => "SD256.NORM"
  | .sd256Add _ _ _ => "SD256.ADD"
  | .sd256Sub _ _ _ => "SD256.SUB"
  | .sd256Neg _ _ => "SD256.NEG"
  | .sd256Mul _ _ _ => "SD256.MUL"
  | .sd256Div _ _ _ => "SD256.DIV"
  | .sd256Cmp _ _ => "SD256.CMP"
  | .sd256Real _ => "SD256.REAL"
  | .sd256Cvtd _ => "SD256.CVTD"
  | .sd256Cvts _ => "SD256.CVTS"

/-- A register, `r0` to `r7`. -/
def regText (r : Reg) : String := "r" ++ toString r.val

/-- `#` introduces a number; here in decimal. -/
def numberText (n : Nat) : String := "#" ++ toString n

/-- The operands of a command, the destination first; `k` is a bare digit. -/
def operandTexts (i : Instr) : List String :=
  match i with
  | .nop => []
  | .ldi rd imm64 => [regText rd, numberText imm64.toNat]
  | .ldl rd k imm64 => [regText rd, toString k.val, numberText imm64.toNat]
  | .ldm rd imm64 => [regText rd, numberText imm64.toNat]
  | .rdl rs1 k => [regText rs1, toString k.val]
  | .rdm rs1 => [regText rs1]
  | .rdst => []
  | .clrerr => []
  | .mov rd rs1 => [regText rd, regText rs1]
  | .uadd rd rs1 rs2 => [regText rd, regText rs1, regText rs2]
  | .usub rd rs1 rs2 => [regText rd, regText rs1, regText rs2]
  | .uneg rd rs1 => [regText rd, regText rs1]
  | .uinc rd rs1 => [regText rd, regText rs1]
  | .udec rd rs1 => [regText rd, regText rs1]
  | .umul rd rs1 rs2 => [regText rd, regText rs1, regText rs2]
  | .udiv rd rs1 rs2 => [regText rd, regText rs1, regText rs2]
  | .umod rd rs1 rs2 => [regText rd, regText rs1, regText rs2]
  | .uand rd rs1 rs2 => [regText rd, regText rs1, regText rs2]
  | .uor rd rs1 rs2 => [regText rd, regText rs1, regText rs2]
  | .unot rd rs1 => [regText rd, regText rs1]
  | .ushl rd rs1 rs2 => [regText rd, regText rs1, regText rs2]
  | .ushr rd rs1 rs2 => [regText rd, regText rs1, regText rs2]
  | .ushli rd rs1 count => [regText rd, regText rs1, numberText count]
  | .ushri rd rs1 count => [regText rd, regText rs1, numberText count]
  | .ucmp rs1 rs2 => [regText rs1, regText rs2]
  | .sd64Norm rd rs1 => [regText rd, regText rs1]
  | .sd64Add rd rs1 rs2 => [regText rd, regText rs1, regText rs2]
  | .sd64Sub rd rs1 rs2 => [regText rd, regText rs1, regText rs2]
  | .sd64Neg rd rs1 => [regText rd, regText rs1]
  | .sd64Mul rd rs1 rs2 => [regText rd, regText rs1, regText rs2]
  | .sd64Div rd rs1 rs2 => [regText rd, regText rs1, regText rs2]
  | .sd64Cmp rs1 rs2 => [regText rs1, regText rs2]
  | .sd64Real rs1 => [regText rs1]
  | .sd64Cvtd rs1 => [regText rs1]
  | .sd64Cvts rs1 => [regText rs1]
  | .sd256Norm rd rs1 => [regText rd, regText rs1]
  | .sd256Add rd rs1 rs2 => [regText rd, regText rs1, regText rs2]
  | .sd256Sub rd rs1 rs2 => [regText rd, regText rs1, regText rs2]
  | .sd256Neg rd rs1 => [regText rd, regText rs1]
  | .sd256Mul rd rs1 rs2 => [regText rd, regText rs1, regText rs2]
  | .sd256Div rd rs1 rs2 => [regText rd, regText rs1, regText rs2]
  | .sd256Cmp rs1 rs2 => [regText rs1, regText rs2]
  | .sd256Real rs1 => [regText rs1]
  | .sd256Cvtd rs1 => [regText rs1]
  | .sd256Cvts rs1 => [regText rs1]

/-- `MNEMONIC operand, operand, ...` -/
def assembly (i : Instr) : String :=
  match operandTexts i with
  | [] => mnemonic i
  | ops => mnemonic i ++ " " ++ ", ".intercalate ops

/-! ## Pseudo-commands (R79) -/

/-- The pseudo-commands. -/
inductive Pseudo where
  /-- `LD256 rd, (A,B,C,D)` -/
  | ld256 (rd : Reg) (a b c d : Limb)
  /-- `LDSD rd, #mant, #exp`, exp below 2^64 -/
  | ldsd (rd : Reg) (mant : F64) (exp : CmdData)
  /-- `SD64.FROMF rd, #f` -/
  | sd64Fromf (rd : Reg) (f : F64)
  /-- `SD256.FROMF rd, #f` -/
  | sd256Fromf (rd : Reg) (f : F64)
  /-- `U.CLR rd` -/
  | uclr (rd : Reg)
deriving DecidableEq, Repr

/-- The commands a pseudo-command stands for, in order. -/
def expand (p : Pseudo) : List Instr :=
  match p with
  | .ld256 rd a b c d => [.ldl rd 3 a, .ldl rd 2 b, .ldl rd 1 c, .ldl rd 0 d]
  | .ldsd rd mant exp => [.ldm rd mant, .ldi rd exp]
  | .sd64Fromf rd f => [.ldm rd f, .ldi rd 0, .sd64Norm rd rd]
  | .sd256Fromf rd f => [.ldm rd f, .ldi rd 0, .sd256Norm rd rd]
  | .uclr rd => [.ldi rd 0]

end Sys2Proof.Machine
end

