-- ==== Sys2Proof/Safety.lean ====
section
/-! DEFINITION. The terms in which statements speak of GM-CORE: what a command leaves changed and unchanged, the pseudocode
of normalization as a relation, the invariant of the port and of `ERR`, and the named properties of an `FP` record
(44_sd_normalize.md R191). -/

namespace Sys2Proof.Machine

/-! ## What a command leaves -/

/-- The host's lists, the choice of `FP` and the draw number are as before. -/
structure SameHost (s t : State) : Prop where
  pins : t.pins = s.pins
  received : t.received = s.received
  fpSel : t.fpSel = s.fpSel
  free : t.free = s.free

/-- Every register keeps both its parts. -/
structure SameRegs (s t : State) : Prop where
  xr : ∀ i, t.xr i = s.xr i
  mr : ∀ i, t.mr i = s.mr i

/-- The command is in flight with its response at the port (20_memory.md R52, R53). -/
structure Responds (t : State) (status : BitVec 3) (data : BitVec 64) : Prop where
  busy : t.busy = true
  rsp : t.rsp = some ⟨status, data⟩

/-- The command wrote no register and no `ERR`, and responded. -/
structure OnlyResponded (s t : State) (status : BitVec 3) (data : BitVec 64) : Prop where
  regs : SameRegs s t
  err : t.err = s.err
  responds : Responds t status data
  host : SameHost s t

/-- The command wrote `v` into `x[rd]` and nothing else, and responded (0, 0). -/
structure WroteX (s t : State) (rd : Reg) (v : U256) : Prop where
  xr : ∀ i, t.xr i = if i = rd then v else s.xr i
  mr : ∀ i, t.mr i = s.mr i
  err : t.err = s.err
  responds : Responds t 0 0
  host : SameHost s t

/-- The command wrote `v` into `m[rd]` and nothing else, and responded (0, 0). -/
structure WroteM (s t : State) (rd : Reg) (v : F64) : Prop where
  xr : ∀ i, t.xr i = s.xr i
  mr : ∀ i, t.mr i = if i = rd then v else s.mr i
  err : t.err = s.err
  responds : Responds t 0 0
  host : SameHost s t

/-- The command wrote both parts of `rd` and nothing else, and responded (0, 0). -/
structure WroteBoth (s t : State) (rd : Reg) (x : U256) (m : F64) : Prop where
  xr : ∀ i, t.xr i = if i = rd then x else s.xr i
  mr : ∀ i, t.mr i = if i = rd then m else s.mr i
  err : t.err = s.err
  responds : Responds t 0 0
  host : SameHost s t

/-- The fault procedure with code `c` (60_exceptions.md R274): no register written, `ERR` takes the code if it was 0, the
response is (c, 0). -/
structure Raised (s t : State) (c : BitVec 3) : Prop where
  regs : SameRegs s t
  err : t.err = if s.err = 0 then c else s.err
  responds : Responds t c 0
  host : SameHost s t

/-- The command hangs (60_exceptions.md R279): no response, no register and no `ERR` written, BUSY true. -/
structure Hung (s t : State) : Prop where
  regs : SameRegs s t
  err : t.err = s.err
  busy : t.busy = true
  rsp : t.rsp = none
  host : SameHost s t

/-! ## Normalization as a relation (44_sd_normalize.md R193) -/

/-- Step 1 as written: `while FP.le(FP.ONE, FP.abs(mant))`, started at the first argument, ends at the second. -/
inductive DivideRuns {n : Nat} (fp : FP) : ScaledDec n → ScaledDec n → Prop where
  | stop (v : ScaledDec n) (h : fp.le fp.one (fp.abs v.mant) = false) : DivideRuns fp v v
  | turn (v w : ScaledDec n) (h : fp.le fp.one (fp.abs v.mant) = true)
      (rest : DivideRuns fp ⟨fp.div v.mant fp.ten, v.exp + 1⟩ w) : DivideRuns fp v w

/-- Step 2 as written: `while FP.le(FP.ZERO, mant) and FP.lt(mant, FP.TENTH)`. -/
inductive MultiplyRuns {n : Nat} (fp : FP) : ScaledDec n → ScaledDec n → Prop where
  | stop (v : ScaledDec n) (h : (fp.le fp.zero v.mant && fp.lt v.mant fp.tenth) = false) : MultiplyRuns fp v v
  | turn (v w : ScaledDec n) (h : (fp.le fp.zero v.mant && fp.lt v.mant fp.tenth) = true)
      (rest : MultiplyRuns fp ⟨fp.mul v.mant fp.ten, v.exp - 1⟩ w) : MultiplyRuns fp v w

/-- `normW` ends on `v` with the value `w`: step 0, then step 1, then step 2 (R193). -/
def NormalizesTo {n : Nat} (fp : FP) (v w : ScaledDec n) : Prop :=
  (fp.eq v.mant fp.zero = true ∧ w = v) ∨
    (fp.eq v.mant fp.zero = false ∧ ∃ u, DivideRuns fp v u ∧ MultiplyRuns fp u w)

/-- `sdaddW` ends on `a`, `b` with the value `w` (45_sd_arith.md R220): equal exponents, the larger exponent within the
cutoff of 16, or beyond it. -/
def AddsTo {n : Nat} (fp : FP) (a b w : ScaledDec n) : Prop :=
  (a.exp = b.exp ∧ NormalizesTo fp ⟨fp.add a.mant b.mant, a.exp⟩ w) ∨
    ∃ big small : ScaledDec n,
      ((big = a ∧ small = b) ∨ (big = b ∧ small = a)) ∧ small.exp.toNat < big.exp.toNat ∧
        ((big.exp.toNat - small.exp.toNat ≤ 16 ∧
            NormalizesTo fp
              ⟨fp.add big.mant (fp.div small.mant (fp.p10 (big.exp.toNat - small.exp.toNat))), big.exp⟩ w) ∨
          (16 < big.exp.toNat - small.exp.toNat ∧ w = big))

/-! ## Which commands do what -/

/-- The commands that use `cmd_data` (20_memory.md R56). -/
def usesCmdData (i : Instr) : Bool :=
  match i with
  | .ldi _ _ | .ldl _ _ _ | .ldm _ _ => true
  | _ => false

/-- The commands whose `rsp_data` is meaningful (20_memory.md R56). -/
def answersData (i : Instr) : Bool :=
  match i with
  | .rdl _ _ | .rdm _ | .rdst | .ucmp _ _ | .sd64Cmp _ _ | .sd256Cmp _ _ | .sd64Real _ | .sd256Real _ | .sd64Cvtd _
  | .sd256Cvtd _ | .sd64Cvts _ | .sd256Cvts _ => true
  | _ => false

/-- The commands with no destination (10_state.md R25). -/
def hasNoDestination (i : Instr) : Bool :=
  match i with
  | .nop | .rdst | .clrerr | .rdl _ _ | .rdm _ | .ucmp _ _ | .sd64Cmp _ _ | .sd256Cmp _ _ | .sd64Real _ | .sd256Real _
  | .sd64Cvtd _ | .sd256Cvtd _ | .sd64Cvts _ | .sd256Cvts _ => true
  | _ => false

/-- The U256 commands (30_encoding.md R74). -/
def isU256 (i : Instr) : Bool :=
  match i with
  | .uadd _ _ _ | .usub _ _ _ | .uneg _ _ | .uinc _ _ | .udec _ _ | .umul _ _ _ | .udiv _ _ _ | .umod _ _ _
  | .uand _ _ _ | .uor _ _ _ | .unot _ _ | .ushl _ _ _ | .ushr _ _ _ | .ushli _ _ _ | .ushri _ _ _ | .ucmp _ _ => true
  | _ => false

/-- The SD64 commands (30_encoding.md R74). -/
def isSd64 (i : Instr) : Bool :=
  match i with
  | .sd64Norm _ _ | .sd64Add _ _ _ | .sd64Sub _ _ _ | .sd64Neg _ _ | .sd64Mul _ _ _ | .sd64Div _ _ _ | .sd64Cmp _ _
  | .sd64Real _ | .sd64Cvtd _ | .sd64Cvts _ => true
  | _ => false

/-- The divide commands, the only ones that raise DivisionByZero (60_exceptions.md R271). -/
def isDivide (i : Instr) : Bool :=
  match i with
  | .udiv _ _ _ | .umod _ _ _ | .sd64Div _ _ _ | .sd256Div _ _ _ => true
  | _ => false

/-- The narrowing conversions, the only commands that raise Overflow (60_exceptions.md R272). -/
def isConversion (i : Instr) : Bool :=
  match i with
  | .sd64Cvtd _ | .sd256Cvtd _ | .sd64Cvts _ | .sd256Cvts _ => true
  | _ => false

/-- The commands from which a hang is reachable (60_exceptions.md R279). -/
def mayHang (i : Instr) : Bool :=
  match i with
  | .sd64Norm _ _ | .sd64Add _ _ _ | .sd64Sub _ _ _ | .sd64Mul _ _ _ | .sd64Div _ _ _ | .sd256Norm _ _
  | .sd256Add _ _ _ | .sd256Sub _ _ _ | .sd256Mul _ _ _ | .sd256Div _ _ _ => true
  | _ => false

/-! ## The invariant -/

/-- A fault code that some rule produces, or 0 (60_exceptions.md R270, 93_implementation_defined.md U20). -/
def producedCode (c : BitVec 3) : Prop := c = 0 ∨ c = 1 ∨ c = 2 ∨ c = 4

/-- A response some rule produces: a faulting one carries no data (60_exceptions.md R274, 20_memory.md R56). -/
def legalResponse (r : Response) : Prop := producedCode r.status ∧ (r.status ≠ 0 → r.data = 0)

/-- What holds of the port and of `ERR` in every run: `ERR` holds a code some rule produces; a response stands at the port
only while BUSY, and a faulting one has left its mark in `ERR`; every response taken was legal (10_state.md R26, R29,
60_exceptions.md R274). -/
structure Inv (s : State) : Prop where
  err : producedCode s.err
  rsp : ∀ r, s.rsp = some r → s.busy = true ∧ legalResponse r ∧ (r.status ≠ 0 → s.err ≠ 0)
  received : ∀ r, r ∈ s.received → legalResponse r

/-- A run without faults, for a claim that wants that premise: nothing recorded and every response OK (60_exceptions.md
R278). -/
structure NoFault (s : State) : Prop where
  err : s.err = 0
  received : ∀ r, r ∈ s.received → r.status = 0

/-- The block is idle: no command in flight (20_memory.md R53). -/
structure Idle (s : State) : Prop where
  busy : s.busy = false
  rsp : s.rsp = none

/-- The block hangs: a command in flight that has no response (60_exceptions.md R279). -/
structure Hanging (s : State) : Prop where
  busy : s.busy = true
  rsp : s.rsp = none

/-- The pins of a host that issues commands one at a time, taking each response before the next command (R53). -/
def hostRun (cmds : List (CmdWord × CmdData)) : List Pins :=
  cmds.flatMap (fun c => [commandPins c.1 c.2, takePins])

/-- The transaction-level view (20_memory.md R55): the commands, each applied to the state that the one before it left, give
the responses and leave the last state. A command's response is the one it puts at the port; a run ends with the first
command that hangs. -/
inductive Transacts : List (CmdWord × CmdData) → State → List Response → State → Prop where
  | done (s : State) : Transacts [] s [] s
  | answered (c : CmdWord × CmdData) (rest : List (CmdWord × CmdData)) (s t u : State) (r : Response) (rs : List Response)
      (run : runCommand c.1 c.2 s = .next t) (rsp : t.rsp = some r) (more : Transacts rest (t.deliver r) rs u) :
      Transacts (c :: rest) s (r :: rs) u
  | hung (c : CmdWord × CmdData) (rest : List (CmdWord × CmdData)) (s t : State)
      (run : runCommand c.1 c.2 s = .next t) (rsp : t.rsp = none) : Transacts (c :: rest) s [] t

/-- Executes a list of instructions in order, each to its response, which the host takes. -/
def execAll (is : List Instr) (s : State) : Result :=
  match is with
  | [] => .next s
  | i :: rest =>
    match exec i s with
    | .next t =>
      match t.rsp with
      | some r => execAll rest (t.deliver r)
      | none => .next t
    | .fault f => .fault f
    | .refused r => .refused r

/-! ## Named properties of an `FP` record (R191) -/

/-- `tenth`: 1.0 divided by 10.0 is `FP.TENTH`. -/
def TenthProperty (fp : FP) : Prop := fp.div fp.one fp.ten = fp.tenth

/-- The largest magnitude of a finite binary64 pattern bounds a finite mantissa: neither an infinity nor a NaN. -/
def FiniteMantissa (a : F64) : Prop := f64IsFinite a = true

/-- A mantissa in the normalized form of R194 (d): 0, or 0.1 ≤ m < 1.0, or −1.0 < m < 0. -/
def InBand (fp : FP) (a : F64) : Prop :=
  fp.eq a fp.zero = true ∨ (fp.le fp.tenth a = true ∧ fp.lt a fp.one = true) ∨
    (fp.lt (fp.neg fp.one) a = true ∧ fp.lt a fp.zero = true)

end Sys2Proof.Machine
end

