-- ==== Sys2Proof/Certificates/Slice0/Obligations.lean ====
section
/-! DEFINITION. The statements for the provers. A statement of an instruction says: the word of its row decodes to it, it
answers a next state under hypotheses on the state and the operands alone, what that state holds, and that nothing else
changes. `s.fp` is whichever instantiation of `FP` the block was built with (00_scope.md R7), unless a statement names the
default. There is no memory and there are no flags, so no statement speaks of them (10_state.md R29, R31). -/

open Sys2Proof Sys2Proof.Machine

/-! ## Encoding -/

/-- Every well-formed instruction, encoded, decodes to itself (30_encoding.md, sections 1 to 3). -/
def Obligations.DecodeEncodeAgree : Prop :=
  ∀ i : Instr, i.wf = true → decode (encode i).1 (encode i).2 = .ok i

/-- Each legal word has one meaning: encoding the instruction decoded from a command gives the command word back, and the
data word where the instruction uses it. -/
def Obligations.EncodeDecodeAgree : Prop :=
  ∀ (w : CmdWord) (d : CmdData) (i : Instr), decode w d = .ok i →
    i.wf = true ∧ (encode i).1 = w ∧ (usesCmdData i = true → (encode i).2 = d)

/-- A word selects a row exactly when `(w AND mask) = match`; the row need not be looked for by the opcode of the word. -/
def Obligations.WordSelectsRowByMask : Prop :=
  ∀ (w : CmdWord) (d : CmdData) (i : Instr),
    decode w d = .ok i ↔
      ∃ op r, rowOf op = some r ∧ w &&& formatMask r.format = matchWord op ∧ i = r.build w d

/-- A word that matches no row raises IllegalCommand, whatever the state; the unassigned opcodes are those R77 lists; the
all-zero word is NOP (R77, R275). -/
def Obligations.IllegalWordRaisesIllegalCommand : Prop :=
  (∀ (s : State) (w : CmdWord) (d : CmdData),
    (∀ op r, rowOf op = some r → w &&& formatMask r.format ≠ matchWord op) →
      ∃ t, runCommand w d s = .next t ∧ Raised s t 4) ∧
  (∀ op : BitVec 8,
    rowOf op = none ↔
      (0x09 ≤ op.toNat ∧ op.toNat ≤ 0x0F) ∨ (0x2A ≤ op.toNat ∧ op.toNat ≤ 0x2F) ∨ 0x3A ≤ op.toNat) ∧
  (∀ d : CmdData, decode 0 d = .ok .nop)

/-- Words the spec writes out decode to the instructions they stand for: a sanity statement. -/
def Obligations.WrittenWordsDecode : Prop :=
  decode 0x10650000 7 = .ok (.uadd 3 1 2) ∧ decode 0x02400001 1 = .ok (.ldl 2 1 1) ∧
    decode 0x1E440002 0 = .ok (.ushri 2 1 2) ∧ decode 0x36050000 0 = .ok (.sd256Cmp 1 2) ∧
    decode 0x10651000 0 = .illegal (.unusedBitsSet 0x10)

/-- `cmd_data` is used only by LDI, LDL and LDM; `rsp_data` is 0 for every command but those R56 lists and for every
response with a non-zero status (R56). -/
def Obligations.DataWordsUsedOnlyWhereSaid : Prop :=
  (∀ (w : CmdWord) (d d' : CmdData) (i : Instr), decode w d = .ok i → usesCmdData i = false → decode w d' = .ok i) ∧
  (∀ (w : CmdWord) (d d' : CmdData) (why : Reject), decode w d = .illegal why → decode w d' = .illegal why) ∧
  (∀ (i : Instr) (s t : State) (r : Response), exec i s = .next t → t.rsp = some r →
    (r.status ≠ 0 ∨ answersData i = false) → r.data = 0) ∧
  (∀ (w : CmdWord) (d : CmdData) (why : Reject) (s t : State) (r : Response), decode w d = .illegal why →
    runCommand w d s = .next t → t.rsp = some r → r.data = 0)

/-! ## The step and the port -/

/-- What a step runs: where the coming edge offers a command that the idle block accepts, the step runs that command on the
state with that edge gone. A word that decodes runs as `exec` of its instruction, a word that does not raises
IllegalCommand; so it is for a command placed by withFetchWord. Where the host drives nothing more, the step leaves all
state as it is. The host as plain data is the model's choice (notes/assumptions/8.md, 10.md). -/
def Obligations.StepRunsDecodedInstruction : Prop :=
  (∀ (s : State) (p : Pins) (rest : List Pins), s.pins = p :: rest → p.rst = false → s.busy = false →
    p.cmdValid = true →
      step s = runCommand p.cmdWord p.cmdData { s with pins := rest } ∧
        (∀ i, decode p.cmdWord p.cmdData = .ok i → step s = exec i { s with pins := rest }) ∧
        (∀ why, decode p.cmdWord p.cmdData = .illegal why →
          ∃ t, step s = .next t ∧ Raised { s with pins := rest } t 4)) ∧
  (∀ (s : State) (nbits w : Nat) (i : Instr), decodeTableWord nbits w = some i →
    step (s.withFetchWord nbits w) = exec i { s with busy := false, rsp := none }) ∧
  (∀ s : State, s.pins = [] → step s = .next s)

/-- An edge with `rst` = 1 gives every piece of state its reset value, whatever is in flight, without a response; `cmd_ready`
and `rsp_valid` are 0 at it, and at the first edge with `rst` = 0 the block accepts (R300). -/
def Obligations.ResetAtAnyEdge : Prop :=
  ∀ (s : State) (p : Pins) (rest : List Pins), s.pins = p :: rest → p.rst = true →
    s.cmdReady p = false ∧ s.rspValid p = false ∧
      ∃ t, step s = .next t ∧ (∀ i, t.xr i = 0 ∧ t.mr i = 0) ∧ t.err = 0 ∧ Idle t ∧ t.received = s.received ∧
        ∀ q : Pins, q.rst = false → t.cmdReady q = true

/-- After reset every piece of state is zero (R32). -/
def Obligations.ResetStateIsZero : Prop :=
  (∀ i, State.reset.xr i = 0 ∧ State.reset.mr i = 0x0000000000000000#64 ∧ State.reset.mr i = State.reset.fp.zero) ∧
    State.reset.err = 0 ∧ State.reset.busy = false

/-- The handshake, edge by edge without reset. `cmd_ready` is 1 exactly when BUSY is false and `rst` is 0 (R53). An edge with
`cmd_valid` and `cmd_ready` accepts the command of that edge's pins: BUSY becomes true, nothing is delivered. An edge with
a response and `rsp_ready` delivers it, once, behind those delivered before, and BUSY becomes false; without `rsp_ready` the
response is stable; without a response nothing is delivered; in each of these no command is accepted and no other state
changes. An edge of an idle block without `cmd_valid` changes no state (R52, R53). The pins to come and the responses taken
are the host as plain data (notes/assumptions/10.md). -/
def Obligations.OneCommandInFlight : Prop :=
  (∀ (s : State) (p : Pins), s.cmdReady p = true ↔ s.busy = false ∧ p.rst = false) ∧
  (∀ (s : State) (p : Pins) (rest : List Pins), s.pins = p :: rest → s.cmdReady p = true → p.cmdValid = true →
    ∃ t, step s = .next t ∧ runCommand p.cmdWord p.cmdData { s with pins := rest } = .next t ∧ t.busy = true ∧
      t.received = s.received) ∧
  (∀ (s : State) (p : Pins) (rest : List Pins) (r : Response), s.pins = p :: rest → p.rst = false → s.busy = true →
    s.rsp = some r →
      step s = .next
        (if p.rspReady then
          { s with pins := rest, busy := false, rsp := none, received := s.received ++ [r] }
        else { s with pins := rest })) ∧
  (∀ (s : State) (p : Pins) (rest : List Pins), s.pins = p :: rest → p.rst = false → Hanging s →
    step s = .next { s with pins := rest }) ∧
  (∀ (s : State) (p : Pins) (rest : List Pins), s.pins = p :: rest → p.rst = false → p.cmdValid = false → Idle s →
    step s = .next { s with pins := rest })

/-- The machine never stops: every state has a next one. Faults are responses, and a hang is a run that goes on for ever. -/
def Obligations.EveryStepAnswersNext : Prop :=
  ∀ s : State, ∃ t, step s = .next t

/-- The invariant of the port and of `ERR` is kept by every step from every state that has it: `ERR` and every status are
0, 1, 2 or 4, a response stands only while BUSY, a faulting one has data 0 and has left `ERR` non-zero. -/
def Obligations.StepKeepsInvariant : Prop :=
  ∀ s t : State, Inv s → step s = .next t → Inv t

/-- The reset state has that invariant. -/
def Obligations.ResetMeetsInvariant : Prop := Inv State.reset

/-- A host that issues commands one at a time gets what the transaction-level view says (20_memory.md R55): each command's own
response, one a command and in the order of the commands, up to one that hangs; after that it gets no more. The block
ends in the state that the commands, applied one after the other, leave. -/
def Obligations.OneResponsePerCommand : Prop :=
  ∀ (cmds : List (CmdWord × CmdData)) (s : State), Idle s → s.pins = hostRun cmds →
    ∃ (rs : List Response) (u : State), Transacts cmds { s with pins := [] } rs u ∧
      Host.Core.run core (2 * cmds.length) s = .next u ∧ u.received = s.received ++ rs ∧
        ((Idle u ∧ rs.length = cmds.length) ∨ (Hanging u ∧ rs.length < cmds.length))

/-- A hung block stays as it is for any number of edges without reset: no response, no command accepted, nothing written. -/
def Obligations.HangLastsUntilReset : Prop :=
  ∀ (k : Nat) (s : State), Hanging s → (∀ p ∈ s.pins.take k, p.rst = false) →
    Host.Core.run core k s = .next { s with pins := s.pins.drop k }

/-! ## Whole-machine rules over all instructions -/

/-- A faulting command writes no register; `ERR` takes the code if it was 0 and keeps its value otherwise; the response is
the code with data 0. An illegal word does the same with code 4 (R274). -/
def Obligations.FaultsChangeOnlyErr : Prop :=
  (∀ (i : Instr) (s t : State) (r : Response), exec i s = .next t → t.rsp = some r → r.status ≠ 0 →
    SameRegs s t ∧ t.err = (if s.err = 0 then r.status else s.err) ∧ r.data = 0 ∧ t.busy = true) ∧
  (∀ (w : CmdWord) (d : CmdData) (why : Reject) (s : State), decode w d = .illegal why →
    ∃ t, runCommand w d s = .next t ∧ Raised s t 4)

/-- DivisionByZero comes from the divide commands only and Overflow from the conversions only; no legal command raises
another code, so none raises two. -/
def Obligations.OnlyDividesAndConversionsFault : Prop :=
  ∀ (i : Instr) (s t : State) (r : Response), exec i s = .next t → t.rsp = some r →
    r.status = 0 ∨ (r.status = 1 ∧ isDivide i = true) ∨ (r.status = 2 ∧ isConversion i = true)

/-- `ERR` keeps the code of the first fault until CLRERR: no other command changes a non-zero `ERR`, and a command that does
not fault does not make it non-zero. -/
def Obligations.FirstFaultIsSticky : Prop :=
  ∀ (i : Instr) (s t : State), i ≠ .clrerr → exec i s = .next t →
    (s.err ≠ 0 → t.err = s.err) ∧ ((∀ r, t.rsp = some r → r.status = 0) → t.err = s.err)

/-- A non-zero `ERR` blocks nothing: but for RDST, which reads it, a command does the same whatever `ERR` holds. -/
def Obligations.ErrBlocksNothing : Prop :=
  ∀ (i : Instr) (s t : State) (e : BitVec 3), i ≠ .rdst → exec i s = .next t →
    ∃ u, exec i { s with err := e } = .next u ∧ { u with err := t.err } = t

/-- SD64 commands ignore the three upper limbs of every `x`: two states that agree on the rest are treated alike. -/
def Obligations.Sd64IgnoresUpperLimbs : Prop :=
  ∀ (i : Instr) (s t : State) (y : Vector U256 8), isSd64 i = true →
    (∀ j : Reg, limb (y[j]) 0 = limb (s.xr j) 0) → exec i s = .next t →
      ∃ u, exec i { s with x := y } = .next u ∧ u.rsp = t.rsp ∧ u.busy = t.busy ∧ u.err = t.err ∧ u.m = t.m ∧
        ∀ j, limb (u.xr j) 0 = limb (t.xr j) 0

/-- U256 commands read and write `x[]` only and never touch any `m[]`; commands with no destination write no register. -/
def Obligations.CommandsTouchTheirParts : Prop :=
  (∀ (i : Instr) (s t : State), isU256 i = true → exec i s = .next t →
    t.m = s.m ∧ ∀ v : Vector F64 8, exec i { s with m := v } = .next { t with m := v }) ∧
  (∀ (i : Instr) (s t : State), hasNoDestination i = true → exec i s = .next t → SameRegs s t)

/-- A command that gives no response is one that normalizes, and it has written no register and no `ERR`. -/
def Obligations.OnlyNormalizingCommandsHang : Prop :=
  ∀ (i : Instr) (s t : State), exec i s = .next t → t.rsp = none →
    mayHang i = true ∧ SameRegs s t ∧ t.err = s.err ∧ t.busy = true

/-! ## Transfer and system commands -/

/-- LDI writes limb D and zeroes limbs A, B, C; LDM stores the 64 bits of the mantissa as they are (R101, R103). -/
def Obligations.LdiLdmLoadTheirPart : Prop :=
  (∀ (s : State) (rd : Reg) (d : CmdData),
    decode (packWord 0x01 rd 0 0 0) d = .ok (.ldi rd d) ∧
      ∃ t v, exec (.ldi rd d) s = .next t ∧ WroteX s t rd v ∧ v.toNat = d.toNat ∧
        limb v 0 = d ∧ limb v 1 = 0 ∧ limb v 2 = 0 ∧ limb v 3 = 0) ∧
  (∀ (s : State) (rd : Reg) (d : CmdData),
    decode (packWord 0x03 rd 0 0 0) d = .ok (.ldm rd d) ∧
      ∃ t, exec (.ldm rd d) s = .next t ∧ WroteM s t rd d)

/-- LDL replaces limb `k` and leaves the other three (R102). -/
def Obligations.LdlReplacesOneLimb : Prop :=
  ∀ (s : State) (rd : Reg) (k : LimbIx) (d : CmdData),
    decode (packWord 0x02 rd 0 0 (limbField k)) d = .ok (.ldl rd k d) ∧
      ∃ t v, exec (.ldl rd k d) s = .next t ∧ WroteX s t rd v ∧
        ∀ j, limb v j = if j = k then d else limb (s.xr rd) j

/-- RDL answers limb `k` (bits 64k+63 to 64k), RDM the mantissa as stored, RDST `ERR` zero-extended; none of them writes
any state (R104, R105, R106). -/
def Obligations.ReadsAnswerAndWriteNothing : Prop :=
  (∀ (s : State) (rs1 : Reg) (k : LimbIx) (d : CmdData),
    decode (packWord 0x04 0 rs1 0 (limbField k)) d = .ok (.rdl rs1 k) ∧
      ∃ t, exec (.rdl rs1 k) s = .next t ∧
        OnlyResponded s t 0 (BitVec.ofNat 64 ((s.xr rs1).toNat / 2 ^ (64 * k.val)))) ∧
  (∀ (s : State) (rs1 : Reg) (d : CmdData),
    decode (packWord 0x05 0 rs1 0 0) d = .ok (.rdm rs1) ∧
      ∃ t, exec (.rdm rs1) s = .next t ∧ OnlyResponded s t 0 (s.mr rs1)) ∧
  (∀ (s : State) (d : CmdData),
    decode 0x06000000 d = .ok .rdst ∧
      ∃ t, exec .rdst s = .next t ∧ OnlyResponded s t 0 (BitVec.ofNat 64 s.err.toNat))

/-- NOP responds OK and writes no state; CLRERR sets `ERR` to 0 and changes no register (R100, R107). -/
def Obligations.NopAndClrerr : Prop :=
  (∀ (s : State) (d : CmdData),
    decode 0x00000000 d = .ok .nop ∧ ∃ t, exec .nop s = .next t ∧ OnlyResponded s t 0 0) ∧
  (∀ (s : State) (d : CmdData),
    decode 0x07000000 d = .ok .clrerr ∧
      ∃ t, exec .clrerr s = .next t ∧ t.err = 0 ∧ SameRegs s t ∧ Responds t 0 0 ∧ SameHost s t)

/-- MOV copies both parts, bit for bit (R108). -/
def Obligations.MovCopiesBothParts : Prop :=
  ∀ (s : State) (rd rs1 : Reg) (d : CmdData),
    decode (packWord 0x08 rd rs1 0 0) d = .ok (.mov rd rs1) ∧
      ∃ t, exec (.mov rd rs1) s = .next t ∧ WroteBoth s t rd (s.xr rs1) (s.mr rs1)

/-! ## U256 add, subtract, logic, compare -/

/-- U.ADD and U.SUB modulo 2^256; the carry and the borrow are recorded nowhere (R121, R122). -/
def Obligations.AddSubModulo : Prop :=
  (∀ (s : State) (rd rs1 rs2 : Reg) (d : CmdData),
    decode (packWord 0x10 rd rs1 rs2 0) d = .ok (.uadd rd rs1 rs2) ∧
      ∃ t, exec (.uadd rd rs1 rs2) s = .next t ∧
        WroteX s t rd (BitVec.ofNat 256 ((s.xr rs1).toNat + (s.xr rs2).toNat))) ∧
  (∀ (s : State) (rd rs1 rs2 : Reg) (d : CmdData),
    decode (packWord 0x11 rd rs1 rs2 0) d = .ok (.usub rd rs1 rs2) ∧
      ∃ t, exec (.usub rd rs1 rs2) s = .next t ∧
        WroteX s t rd (BitVec.ofNat 256 ((s.xr rs1).toNat + 2 ^ 256 - (s.xr rs2).toNat)))

/-- U.NEG is 2^256 − v modulo 2^256, U.INC and U.DEC add and subtract 1 (R123, R124, R125). -/
def Obligations.NegIncDecModulo : Prop :=
  (∀ (s : State) (rd rs1 : Reg) (d : CmdData),
    decode (packWord 0x12 rd rs1 0 0) d = .ok (.uneg rd rs1) ∧
      ∃ t, exec (.uneg rd rs1) s = .next t ∧ WroteX s t rd (BitVec.ofNat 256 (2 ^ 256 - (s.xr rs1).toNat))) ∧
  (∀ (s : State) (rd rs1 : Reg) (d : CmdData),
    decode (packWord 0x13 rd rs1 0 0) d = .ok (.uinc rd rs1) ∧
      ∃ t, exec (.uinc rd rs1) s = .next t ∧ WroteX s t rd (BitVec.ofNat 256 ((s.xr rs1).toNat + 1))) ∧
  (∀ (s : State) (rd rs1 : Reg) (d : CmdData),
    decode (packWord 0x14 rd rs1 0 0) d = .ok (.udec rd rs1) ∧
      ∃ t, exec (.udec rd rs1) s = .next t ∧ WroteX s t rd (BitVec.ofNat 256 ((s.xr rs1).toNat + 2 ^ 256 - 1)))

/-- U.AND, U.OR and U.NOT bit by bit (R126, R127, R128). -/
def Obligations.LogicBitByBit : Prop :=
  (∀ (s : State) (rd rs1 rs2 : Reg) (d : CmdData),
    decode (packWord 0x18 rd rs1 rs2 0) d = .ok (.uand rd rs1 rs2) ∧
      ∃ t v, exec (.uand rd rs1 rs2) s = .next t ∧ WroteX s t rd v ∧
        ∀ i, i < 256 → v.getLsbD i = ((s.xr rs1).getLsbD i && (s.xr rs2).getLsbD i)) ∧
  (∀ (s : State) (rd rs1 rs2 : Reg) (d : CmdData),
    decode (packWord 0x19 rd rs1 rs2 0) d = .ok (.uor rd rs1 rs2) ∧
      ∃ t v, exec (.uor rd rs1 rs2) s = .next t ∧ WroteX s t rd v ∧
        ∀ i, i < 256 → v.getLsbD i = ((s.xr rs1).getLsbD i || (s.xr rs2).getLsbD i)) ∧
  (∀ (s : State) (rd rs1 : Reg) (d : CmdData),
    decode (packWord 0x1A rd rs1 0 0) d = .ok (.unot rd rs1) ∧
      ∃ t v, exec (.unot rd rs1) s = .next t ∧ WroteX s t rd v ∧
        ∀ i, i < 256 → v.getLsbD i = !(s.xr rs1).getLsbD i)

/-- U.CMP answers −1, 0, +1 exactly as the 256-bit unsigned values are less, equal, greater, and writes no state (R129). -/
def Obligations.UCmpComparesUnsigned : Prop :=
  ∀ (s : State) (rs1 rs2 : Reg) (d : CmdData),
    decode (packWord 0x1F 0 rs1 rs2 0) d = .ok (.ucmp rs1 rs2) ∧
      ∃ t, exec (.ucmp rs1 rs2) s = .next t ∧
        OnlyResponded s t 0
          (if (s.xr rs1).toNat < (s.xr rs2).toNat then 0xFFFFFFFFFFFFFFFF#64
          else if (s.xr rs2).toNat < (s.xr rs1).toNat then 0x0000000000000001#64 else 0)

/-- The limb procedures with carry and borrow chain are addition and subtraction modulo 2^256 (R120). -/
def Obligations.CarryChainIsModular : Prop :=
  ∀ a b : U256,
    add256Limbs a b = add256 a b ∧ sub256Limbs a b = sub256 a b ∧
      (add256 a b).toNat = (a.toNat + b.toNat) % 2 ^ 256 ∧ (sub256 a b).toNat = (a.toNat + 2 ^ 256 - b.toNat) % 2 ^ 256

/-- The laws of U256 add and subtract, the carry read off a comparison among them (R130). -/
def Obligations.AddSubLaws : Prop :=
  (∀ a b : U256, sub256 a b = add256 a (neg256 b) ∧ add256 a b = add256 b a ∧ add256 a 0 = a ∧
    sub256 (add256 a b) b = a ∧ (2 ^ 256 ≤ a.toNat + b.toNat ↔ cmp256 (add256 a b) a = .lt)) ∧
  (∀ a b c : U256, add256 (add256 a b) c = add256 a (add256 b c))

/-! ## U256 multiply, divide, shift -/

/-- U.MUL keeps the low 256 bits of the product (R151). -/
def Obligations.MulModulo : Prop :=
  ∀ (s : State) (rd rs1 rs2 : Reg) (d : CmdData),
    decode (packWord 0x15 rd rs1 rs2 0) d = .ok (.umul rd rs1 rs2) ∧
      ∃ t, exec (.umul rd rs1 rs2) s = .next t ∧
        WroteX s t rd (BitVec.ofNat 256 ((s.xr rs1).toNat * (s.xr rs2).toNat))

/-- The schoolbook procedure computes the product modulo 2^256. -/
def Obligations.SchoolbookIsModular : Prop :=
  ∀ a b : U256, mul256Limbs a b = mul256 a b ∧ (mul256 a b).toNat = a.toNat * b.toNat % 2 ^ 256

/-- U.DIV and U.MOD: DivisionByZero exactly when the divisor is 0, the destination keeping its value; else the floor
quotient and the remainder; and n = q · d + r as naturals, r < d (R153, R154, R155). -/
def Obligations.DivModFloor : Prop :=
  (∀ (s : State) (rd rs1 rs2 : Reg) (d : CmdData),
    decode (packWord 0x16 rd rs1 rs2 0) d = .ok (.udiv rd rs1 rs2) ∧
      (s.xr rs2 = 0 → ∃ t, exec (.udiv rd rs1 rs2) s = .next t ∧ Raised s t 1) ∧
      (s.xr rs2 ≠ 0 → ∃ t v, exec (.udiv rd rs1 rs2) s = .next t ∧ WroteX s t rd v ∧
        v.toNat = (s.xr rs1).toNat / (s.xr rs2).toNat)) ∧
  (∀ (s : State) (rd rs1 rs2 : Reg) (d : CmdData),
    decode (packWord 0x17 rd rs1 rs2 0) d = .ok (.umod rd rs1 rs2) ∧
      (s.xr rs2 = 0 → ∃ t, exec (.umod rd rs1 rs2) s = .next t ∧ Raised s t 1) ∧
      (s.xr rs2 ≠ 0 → ∃ t v, exec (.umod rd rs1 rs2) s = .next t ∧ WroteX s t rd v ∧
        v.toNat = (s.xr rs1).toNat % (s.xr rs2).toNat)) ∧
  (∀ (s t u : State) (rd rd' rs1 rs2 : Reg), s.xr rs2 ≠ 0 → exec (.udiv rd rs1 rs2) s = .next t →
    exec (.umod rd' rs1 rs2) s = .next u →
      (s.xr rs1).toNat = (t.xr rd).toNat * (s.xr rs2).toNat + (u.xr rd').toNat ∧
        (u.xr rd').toNat < (s.xr rs2).toNat)

/-- The reference divider's loop gives the floor quotient and the remainder (R156). -/
def Obligations.ReferenceDividerIsFloor : Prop :=
  ∀ n d : U256, d ≠ 0 → divmod256 n d = (n.toNat / d.toNat, n.toNat % d.toNat)

/-- The laws of U256 multiply, divide and modulo (R157). -/
def Obligations.MulDivLaws : Prop :=
  (∀ x d : U256, d ≠ 0 → x.toNat * d.toNat < 2 ^ 256 → div256 (mul256 x d) d = x) ∧
  (∀ a b c : U256, mul256 a b = mul256 b a ∧ mul256 (mul256 a b) c = mul256 a (mul256 b c) ∧
    mul256 a (add256 b c) = add256 (mul256 a b) (mul256 a c)) ∧
  (∀ (a : U256) (k : Nat), k < 256 →
    mul256 a (BitVec.ofNat 256 (2 ^ k)) = shl256 a k ∧ div256 a (BitVec.ofNat 256 (2 ^ k)) = shr256 a k) ∧
  (∀ n d : U256, d ≠ 0 → (div256 n d).toNat = n.toNat / d.toNat ∧ (mod256 n d).toNat = n.toNat % d.toNat) ∧
  (∀ (i : Instr) (s t : State) (r : Response), isU256 i = true → exec i s = .next t → t.rsp = some r →
    r.status ≠ 0 → r.status = 1 ∧ isDivide i = true)

/-- U.SHL and U.SHR by the count in limb D of the count register, U.SHLI and U.SHRI by the immediate: logical, any count,
not reduced (R172 to R175). -/
def Obligations.ShiftsAreLogical : Prop :=
  (∀ (s : State) (rd rs1 rs2 : Reg) (d : CmdData),
    decode (packWord 0x1B rd rs1 rs2 0) d = .ok (.ushl rd rs1 rs2) ∧
      ∃ t v, exec (.ushl rd rs1 rs2) s = .next t ∧ WroteX s t rd v ∧
        v.toNat = (s.xr rs1).toNat * 2 ^ ((s.xr rs2).toNat % 2 ^ 64) % 2 ^ 256) ∧
  (∀ (s : State) (rd rs1 rs2 : Reg) (d : CmdData),
    decode (packWord 0x1C rd rs1 rs2 0) d = .ok (.ushr rd rs1 rs2) ∧
      ∃ t v, exec (.ushr rd rs1 rs2) s = .next t ∧ WroteX s t rd v ∧
        v.toNat = (s.xr rs1).toNat / 2 ^ ((s.xr rs2).toNat % 2 ^ 64)) ∧
  (∀ (s : State) (rd rs1 : Reg) (c : BitVec 12) (d : CmdData),
    decode (packWord 0x1D rd rs1 0 c) d = .ok (.ushli rd rs1 c.toNat) ∧
      ∃ t v, exec (.ushli rd rs1 c.toNat) s = .next t ∧ WroteX s t rd v ∧
        v.toNat = (s.xr rs1).toNat * 2 ^ c.toNat % 2 ^ 256) ∧
  (∀ (s : State) (rd rs1 : Reg) (c : BitVec 12) (d : CmdData),
    decode (packWord 0x1E rd rs1 0 c) d = .ok (.ushri rd rs1 c.toNat) ∧
      ∃ t v, exec (.ushri rd rs1 c.toNat) s = .next t ∧ WroteX s t rd v ∧
        v.toNat = (s.xr rs1).toNat / 2 ^ c.toNat)

/-- The shift functions, bit by bit and limb by limb, and 0 for every count of 256 and above (R170, R171). -/
def Obligations.ShifterLimbsAndBits : Prop :=
  (∀ (v : U256) (k : Nat),
    (shl256 v k).toNat = v.toNat * 2 ^ k % 2 ^ 256 ∧ (shr256 v k).toNat = v.toNat / 2 ^ k ∧
      (∀ i, i < 256 → (shl256 v k).getLsbD i = (decide (k ≤ i) && v.getLsbD (i - k))) ∧
      (∀ i, i < 256 → (shr256 v k).getLsbD i = (decide (i + k ≤ 255) && v.getLsbD (i + k)))) ∧
  (∀ (v : U256) (k : Nat), k < 256 → shl256Limbs v k = shl256 v k ∧ shr256Limbs v k = shr256 v k) ∧
  (∀ (v : U256) (k : Nat), 256 ≤ k → shl256 v k = 0 ∧ shr256 v k = 0)

/-- The round trips and the composition of shifts (R176). -/
def Obligations.ShiftRoundTrips : Prop :=
  (∀ (x : U256) (k : Nat), k ≤ 256 →
    (x.toNat < 2 ^ (256 - k) → shr256 (shl256 x k) k = x) ∧
      (shr256 (shl256 x k) k).toNat = x.toNat % 2 ^ (256 - k) ∧
      (shl256 (shr256 x k) k).toNat = x.toNat - x.toNat % 2 ^ k) ∧
  (∀ (x : U256) (a b : Nat), shl256 (shl256 x a) b = shl256 x (a + b) ∧ shr256 (shr256 x a) b = shr256 x (a + b))

/-! ## Scaled decimals: normalization and negation -/

/-- For every `FP` and every width, normalization answers exactly where the pseudocode of R193 ends and with its value, so
that it answers "never ends" exactly where the pseudocode does not end. -/
def Obligations.NormalizeIsThePseudocode : Prop :=
  ∀ (n : Nat) (fp : FP) (v w : ScaledDec n), normalize fp v = some w ↔ NormalizesTo fp v w

/-- SDW.NORM writes the normalized pair, the exponent zero-extended, where normalization ends, and hangs where it does not
(R197). -/
def Obligations.NormWritesNormalizedOrHangs : Prop :=
  (∀ (s : State) (rd rs1 : Reg) (d : CmdData),
    decode (packWord 0x20 rd rs1 0 0) d = .ok (.sd64Norm rd rs1) ∧
      (∀ w, NormalizesTo s.fp ⟨s.mr rs1, (limb (s.xr rs1) 0 : BitVec 64)⟩ w →
        ∃ t, exec (.sd64Norm rd rs1) s = .next t ∧ WroteBoth s t rd (w.exp.setWidth 256) w.mant) ∧
      ((∀ w, ¬ NormalizesTo s.fp ⟨s.mr rs1, (limb (s.xr rs1) 0 : BitVec 64)⟩ w) →
        ∃ t, exec (.sd64Norm rd rs1) s = .next t ∧ Hung s t)) ∧
  (∀ (s : State) (rd rs1 : Reg) (d : CmdData),
    decode (packWord 0x30 rd rs1 0 0) d = .ok (.sd256Norm rd rs1) ∧
      (∀ w, NormalizesTo s.fp ⟨s.mr rs1, s.xr rs1⟩ w →
        ∃ t, exec (.sd256Norm rd rs1) s = .next t ∧ WroteBoth s t rd w.exp w.mant) ∧
      ((∀ w, ¬ NormalizesTo s.fp ⟨s.mr rs1, s.xr rs1⟩ w) →
        ∃ t, exec (.sd256Norm rd rs1) s = .next t ∧ Hung s t))

/-- SDW.NEG flips the mantissa's sign only, without normalizing; under the default `FP` it inverts bit 63 of any pattern, so
that twice is the identity (R198). -/
def Obligations.NegFlipsSignOnly : Prop :=
  (∀ (s : State) (rd rs1 : Reg) (d : CmdData),
    decode (packWord 0x23 rd rs1 0 0) d = .ok (.sd64Neg rd rs1) ∧
      ∃ t, exec (.sd64Neg rd rs1) s = .next t ∧
        WroteBoth s t rd (BitVec.ofNat 256 (limb (s.xr rs1) 0).toNat) (s.fp.neg (s.mr rs1))) ∧
  (∀ (s : State) (rd rs1 : Reg) (d : CmdData),
    decode (packWord 0x33 rd rs1 0 0) d = .ok (.sd256Neg rd rs1) ∧
      ∃ t, exec (.sd256Neg rd rs1) s = .next t ∧ WroteBoth s t rd (s.xr rs1) (s.fp.neg (s.mr rs1))) ∧
  (∀ a : F64, ieeeFp.neg (ieeeFp.neg a) = a ∧
    ∀ i, i < 64 → (ieeeFp.neg a).getLsbD i = if i = 63 then !a.getLsbD i else a.getLsbD i)

/-- Under the default `FP`, normalizing a mantissa that is not a NaN ends in the band of R194 (d), and normalizing again
changes nothing (R194 (d), (e)). -/
def Obligations.NormalizedIsInBandAndFixed : Prop :=
  ∀ (n : Nat) (v w : ScaledDec n), f64IsNan v.mant = false → normalize ieeeFp v = some w →
    InBand ieeeFp w.mant ∧ normalize ieeeFp w = some w

/-- Under the default `FP`, normalization never ends exactly on the infinities, and returns a NaN unchanged (R199 (a), (b),
R194 (a), (c)). -/
def Obligations.HangsExactlyOnInfinity : Prop :=
  ∀ (n : Nat) (v : ScaledDec n),
    (normalize ieeeFp v = none ↔ f64IsInf v.mant = true) ∧ (f64IsNan v.mant = true → normalize ieeeFp v = some v)

/-- The constants of the default `FP` are what R191 says: `tenth`, the exact powers of ten up to 10^22, and the divisors of
the alignment among them. -/
def Obligations.DefaultConstantsAreExact : Prop :=
  TenthProperty ieeeFp ∧ ieeeFp.pow10 0 = ieeeFp.one ∧ ieeeFp.pow10 1 = ieeeFp.ten ∧
  (∀ d, 1 ≤ d → d ≤ 16 → ieeeFp.p10 d = ieeeFp.pow10 d) ∧
  (∀ k, k ≤ 22 → f64IsFinite (ieeeFp.pow10 k) = true ∧ f64Negative (ieeeFp.pow10 k) = false ∧
    f64Significand (ieeeFp.pow10 k) * 2 ^ f64Scale (ieeeFp.pow10 k) = 10 ^ k * 2 ^ 1075)

/-! ## Scaled decimals: add, subtract, multiply, divide -/

/-- SDW.ADD writes the aligned sum where it ends, the operands taken as they stand, and hangs where it does not (R221). -/
def Obligations.AddAlignsByExponent : Prop :=
  (∀ (s : State) (rd rs1 rs2 : Reg) (d : CmdData),
    decode (packWord 0x21 rd rs1 rs2 0) d = .ok (.sd64Add rd rs1 rs2) ∧
      (∀ w, AddsTo s.fp (s.sd 64 rs1) (s.sd 64 rs2) w →
        ∃ t, exec (.sd64Add rd rs1 rs2) s = .next t ∧ WroteBoth s t rd (w.exp.setWidth 256) w.mant) ∧
      ((∀ w, ¬ AddsTo s.fp (s.sd 64 rs1) (s.sd 64 rs2) w) →
        ∃ t, exec (.sd64Add rd rs1 rs2) s = .next t ∧ Hung s t)) ∧
  (∀ (s : State) (rd rs1 rs2 : Reg) (d : CmdData),
    decode (packWord 0x31 rd rs1 rs2 0) d = .ok (.sd256Add rd rs1 rs2) ∧
      (∀ w, AddsTo s.fp (s.sd 256 rs1) (s.sd 256 rs2) w →
        ∃ t, exec (.sd256Add rd rs1 rs2) s = .next t ∧ WroteBoth s t rd w.exp w.mant) ∧
      ((∀ w, ¬ AddsTo s.fp (s.sd 256 rs1) (s.sd 256 rs2) w) →
        ∃ t, exec (.sd256Add rd rs1 rs2) s = .next t ∧ Hung s t))

/-- SDW.SUB is the aligned sum of the minuend and the negated subtrahend (R222). -/
def Obligations.SubAddsTheNegated : Prop :=
  (∀ (s : State) (rd rs1 rs2 : Reg) (d : CmdData),
    decode (packWord 0x22 rd rs1 rs2 0) d = .ok (.sd64Sub rd rs1 rs2) ∧
      (∀ w, AddsTo s.fp (s.sd 64 rs1) ⟨s.fp.neg (s.mr rs2), s.expW 64 rs2⟩ w →
        ∃ t, exec (.sd64Sub rd rs1 rs2) s = .next t ∧ WroteBoth s t rd (w.exp.setWidth 256) w.mant) ∧
      ((∀ w, ¬ AddsTo s.fp (s.sd 64 rs1) ⟨s.fp.neg (s.mr rs2), s.expW 64 rs2⟩ w) →
        ∃ t, exec (.sd64Sub rd rs1 rs2) s = .next t ∧ Hung s t)) ∧
  (∀ (s : State) (rd rs1 rs2 : Reg) (d : CmdData),
    decode (packWord 0x32 rd rs1 rs2 0) d = .ok (.sd256Sub rd rs1 rs2) ∧
      (∀ w, AddsTo s.fp (s.sd 256 rs1) ⟨s.fp.neg (s.mr rs2), s.expW 256 rs2⟩ w →
        ∃ t, exec (.sd256Sub rd rs1 rs2) s = .next t ∧ WroteBoth s t rd w.exp w.mant) ∧
      ((∀ w, ¬ AddsTo s.fp (s.sd 256 rs1) ⟨s.fp.neg (s.mr rs2), s.expW 256 rs2⟩ w) →
        ∃ t, exec (.sd256Sub rd rs1 rs2) s = .next t ∧ Hung s t))

/-- SDW.MUL: mantissas multiply, exponents add modulo 2^W, then normalize (R223). -/
def Obligations.MulMultipliesAndAdds : Prop :=
  (∀ (s : State) (rd rs1 rs2 : Reg) (d : CmdData),
    decode (packWord 0x24 rd rs1 rs2 0) d = .ok (.sd64Mul rd rs1 rs2) ∧
      (∀ w, NormalizesTo s.fp
          ⟨s.fp.mul (s.mr rs1) (s.mr rs2), BitVec.ofNat 64 ((s.expW 64 rs1).toNat + (s.expW 64 rs2).toNat)⟩ w →
        ∃ t, exec (.sd64Mul rd rs1 rs2) s = .next t ∧ WroteBoth s t rd (w.exp.setWidth 256) w.mant) ∧
      ((∀ w, ¬ NormalizesTo s.fp
          ⟨s.fp.mul (s.mr rs1) (s.mr rs2), BitVec.ofNat 64 ((s.expW 64 rs1).toNat + (s.expW 64 rs2).toNat)⟩ w) →
        ∃ t, exec (.sd64Mul rd rs1 rs2) s = .next t ∧ Hung s t)) ∧
  (∀ (s : State) (rd rs1 rs2 : Reg) (d : CmdData),
    decode (packWord 0x34 rd rs1 rs2 0) d = .ok (.sd256Mul rd rs1 rs2) ∧
      (∀ w, NormalizesTo s.fp
          ⟨s.fp.mul (s.mr rs1) (s.mr rs2), BitVec.ofNat 256 ((s.xr rs1).toNat + (s.xr rs2).toNat)⟩ w →
        ∃ t, exec (.sd256Mul rd rs1 rs2) s = .next t ∧ WroteBoth s t rd w.exp w.mant) ∧
      ((∀ w, ¬ NormalizesTo s.fp
          ⟨s.fp.mul (s.mr rs1) (s.mr rs2), BitVec.ofNat 256 ((s.xr rs1).toNat + (s.xr rs2).toNat)⟩ w) →
        ∃ t, exec (.sd256Mul rd rs1 rs2) s = .next t ∧ Hung s t))

/-- SDW.DIV: DivisionByZero where the divisor's mantissa equals `FP.ZERO`; else, for a divisor that has a sign, mantissas
divide, exponents subtract modulo 2^W, then normalize (R224). A divisor without a sign is UnspecifiedSignStillCompletes. -/
def Obligations.DivDividesAndSubtracts : Prop :=
  (∀ (s : State) (rd rs1 rs2 : Reg) (d : CmdData),
    decode (packWord 0x25 rd rs1 rs2 0) d = .ok (.sd64Div rd rs1 rs2) ∧
      (s.fp.eq (s.mr rs2) s.fp.zero = true → ∃ t, exec (.sd64Div rd rs1 rs2) s = .next t ∧ Raised s t 1) ∧
      (s.fp.eq (s.mr rs2) s.fp.zero = false → sign s.fp (s.mr rs2) ≠ none →
        (∀ w, NormalizesTo s.fp
            ⟨s.fp.div (s.mr rs1) (s.mr rs2),
              BitVec.ofNat 64 ((s.expW 64 rs1).toNat + 2 ^ 64 - (s.expW 64 rs2).toNat)⟩ w →
          ∃ t, exec (.sd64Div rd rs1 rs2) s = .next t ∧ WroteBoth s t rd (w.exp.setWidth 256) w.mant) ∧
        ((∀ w, ¬ NormalizesTo s.fp
            ⟨s.fp.div (s.mr rs1) (s.mr rs2),
              BitVec.ofNat 64 ((s.expW 64 rs1).toNat + 2 ^ 64 - (s.expW 64 rs2).toNat)⟩ w) →
          ∃ t, exec (.sd64Div rd rs1 rs2) s = .next t ∧ Hung s t))) ∧
  (∀ (s : State) (rd rs1 rs2 : Reg) (d : CmdData),
    decode (packWord 0x35 rd rs1 rs2 0) d = .ok (.sd256Div rd rs1 rs2) ∧
      (s.fp.eq (s.mr rs2) s.fp.zero = true → ∃ t, exec (.sd256Div rd rs1 rs2) s = .next t ∧ Raised s t 1) ∧
      (s.fp.eq (s.mr rs2) s.fp.zero = false → sign s.fp (s.mr rs2) ≠ none →
        (∀ w, NormalizesTo s.fp
            ⟨s.fp.div (s.mr rs1) (s.mr rs2), BitVec.ofNat 256 ((s.xr rs1).toNat + 2 ^ 256 - (s.xr rs2).toNat)⟩ w →
          ∃ t, exec (.sd256Div rd rs1 rs2) s = .next t ∧ WroteBoth s t rd w.exp w.mant) ∧
        ((∀ w, ¬ NormalizesTo s.fp
            ⟨s.fp.div (s.mr rs1) (s.mr rs2), BitVec.ofNat 256 ((s.xr rs1).toNat + 2 ^ 256 - (s.xr rs2).toNat)⟩ w) →
          ∃ t, exec (.sd256Div rd rs1 rs2) s = .next t ∧ Hung s t)))

/-- Under the default `FP` the aligned sum and the product of finite operands do not depend on their order, nor does what
SD64.ADD, SD256.ADD, SD64.MUL and SD256.MUL do (45_sd_arith.md, section 2 (a)). -/
def Obligations.AddMulCommute : Prop :=
  ∀ (s : State) (rd rs1 rs2 : Reg), s.fpSel = .ieee754 → FiniteMantissa (s.mr rs1) → FiniteMantissa (s.mr rs2) →
    exec (.sd64Add rd rs1 rs2) s = exec (.sd64Add rd rs2 rs1) s ∧
      exec (.sd256Add rd rs1 rs2) s = exec (.sd256Add rd rs2 rs1) s ∧
      exec (.sd64Mul rd rs1 rs2) s = exec (.sd64Mul rd rs2 rs1) s ∧
      exec (.sd256Mul rd rs1 rs2) s = exec (.sd256Mul rd rs2 rs1) s

/-! ## Scaled decimals: compare, RealValue, conversions -/

/-- SDW.CMP on operands that have signs: by sign; two zeros equal; by exponent, the same way for both signs; by mantissa; the
answer is in the response data and no state is written (R240, R241). -/
def Obligations.CmpOrdersBySignExponentMantissa : Prop :=
  (∀ (rs1 rs2 : Reg) (d : CmdData),
    decode (packWord 0x26 0 rs1 rs2 0) d = .ok (.sd64Cmp rs1 rs2) ∧
      decode (packWord 0x36 0 rs1 rs2 0) d = .ok (.sd256Cmp rs1 rs2)) ∧
  (∀ (s : State) (rs1 rs2 : Reg) (sa sb : Sign), sign s.fp (s.mr rs1) = some sa → sign s.fp (s.mr rs2) = some sb →
    ∃ t, exec (.sd64Cmp rs1 rs2) s = .next t ∧
      OnlyResponded s t 0
        (if sa ≠ sb then (if sa.toInt < sb.toInt then 0xFFFFFFFFFFFFFFFF#64 else 1)
        else if sa = .zero then 0
        else if (s.xr rs1).toNat % 2 ^ 64 < (s.xr rs2).toNat % 2 ^ 64 then 0xFFFFFFFFFFFFFFFF#64
        else if (s.xr rs2).toNat % 2 ^ 64 < (s.xr rs1).toNat % 2 ^ 64 then 1
        else if s.fp.lt (s.mr rs1) (s.mr rs2) then 0xFFFFFFFFFFFFFFFF#64
        else if s.fp.lt (s.mr rs2) (s.mr rs1) then 1 else 0)) ∧
  (∀ (s : State) (rs1 rs2 : Reg) (sa sb : Sign), sign s.fp (s.mr rs1) = some sa → sign s.fp (s.mr rs2) = some sb →
    ∃ t, exec (.sd256Cmp rs1 rs2) s = .next t ∧
      OnlyResponded s t 0
        (if sa ≠ sb then (if sa.toInt < sb.toInt then 0xFFFFFFFFFFFFFFFF#64 else 1)
        else if sa = .zero then 0
        else if (s.xr rs1).toNat < (s.xr rs2).toNat then 0xFFFFFFFFFFFFFFFF#64
        else if (s.xr rs2).toNat < (s.xr rs1).toNat then 1
        else if s.fp.lt (s.mr rs1) (s.mr rs2) then 0xFFFFFFFFFFFFFFFF#64
        else if s.fp.lt (s.mr rs2) (s.mr rs1) then 1 else 0))

/-- Under the default `FP`, on operands that are not NaNs, exactly one of LT, EQ, GT is the result, the reversed comparison
is the mirror, and LT and EQ are transitive; two zeros of any signs and exponents are equal (R242). -/
def Obligations.CmpIsATotalOrder : Prop :=
  (∀ (n : Nat) (a b c : ScaledDec n), f64IsNan a.mant = false → f64IsNan b.mant = false → f64IsNan c.mant = false →
    ∃ ab bc ac : Ordering,
      compareSd ieeeFp a b = some ab ∧ compareSd ieeeFp b c = some bc ∧ compareSd ieeeFp a c = some ac ∧
        compareSd ieeeFp b a = some ab.swap ∧ (ab = .lt → bc = .lt → ac = .lt) ∧ (ab = .eq → ac = bc)) ∧
  (∀ (n : Nat) (ea eb : BitVec n) (za zb : F64),
    (za = 0x0000000000000000#64 ∨ za = 0x8000000000000000#64) →
    (zb = 0x0000000000000000#64 ∨ zb = 0x8000000000000000#64) →
      compareSd ieeeFp ⟨za, ea⟩ ⟨zb, eb⟩ = some .eq)

/-- SDW.REAL answers mantissa × 10^exponent for an exponent up to 308 and `FP.MAX` above, whatever the mantissa, and never
faults (R243, R245). -/
def Obligations.RealSaturatesAbove308 : Prop :=
  (∀ (s : State) (rs1 : Reg) (d : CmdData),
    decode (packWord 0x27 0 rs1 0 0) d = .ok (.sd64Real rs1) ∧
      ∃ t, exec (.sd64Real rs1) s = .next t ∧
        OnlyResponded s t 0
          (if (s.xr rs1).toNat % 2 ^ 64 ≤ 308 then s.fp.mul (s.mr rs1) (s.fp.pow10 ((s.xr rs1).toNat % 2 ^ 64))
          else s.fp.max)) ∧
  (∀ (s : State) (rs1 : Reg) (d : CmdData),
    decode (packWord 0x37 0 rs1 0 0) d = .ok (.sd256Real rs1) ∧
      ∃ t, exec (.sd256Real rs1) s = .next t ∧
        OnlyResponded s t 0
          (if (s.xr rs1).toNat ≤ 308 then s.fp.mul (s.mr rs1) (s.fp.pow10 (s.xr rs1).toNat) else s.fp.max))

/-- SDW.CVTD on a source that has a sign: `FP.ZERO` for a zero whatever the exponent; Overflow for an exponent above 307;
else the RealValue (R246). -/
def Obligations.CvtdOverflowsAbove307 : Prop :=
  (∀ (s : State) (rs1 : Reg) (d : CmdData) (g : Sign), sign s.fp (s.mr rs1) = some g →
    decode (packWord 0x28 0 rs1 0 0) d = .ok (.sd64Cvtd rs1) ∧
      ∃ t, exec (.sd64Cvtd rs1) s = .next t ∧
        (if g = .zero then OnlyResponded s t 0 s.fp.zero
        else if 307 < (s.xr rs1).toNat % 2 ^ 64 then Raised s t 2
        else OnlyResponded s t 0 (s.fp.mul (s.mr rs1) (s.fp.pow10 ((s.xr rs1).toNat % 2 ^ 64))))) ∧
  (∀ (s : State) (rs1 : Reg) (d : CmdData) (g : Sign), sign s.fp (s.mr rs1) = some g →
    decode (packWord 0x38 0 rs1 0 0) d = .ok (.sd256Cvtd rs1) ∧
      ∃ t, exec (.sd256Cvtd rs1) s = .next t ∧
        (if g = .zero then OnlyResponded s t 0 s.fp.zero
        else if 307 < (s.xr rs1).toNat then Raised s t 2
        else OnlyResponded s t 0 (s.fp.mul (s.mr rs1) (s.fp.pow10 (s.xr rs1).toNat))))

/-- SDW.CVTS on a source that has a sign: 0 for a zero whatever the exponent; Overflow for an exponent above 37; else the
RealValue as a 32-bit float in the low half of the response data (R247). -/
def Obligations.CvtsOverflowsAbove37 : Prop :=
  (∀ (s : State) (rs1 : Reg) (d : CmdData) (g : Sign), sign s.fp (s.mr rs1) = some g →
    decode (packWord 0x29 0 rs1 0 0) d = .ok (.sd64Cvts rs1) ∧
      ∃ t, exec (.sd64Cvts rs1) s = .next t ∧
        (if g = .zero then OnlyResponded s t 0 0
        else if 37 < (s.xr rs1).toNat % 2 ^ 64 then Raised s t 2
        else OnlyResponded s t 0
          (BitVec.ofNat 64 (s.fp.toF32 (s.fp.mul (s.mr rs1) (s.fp.pow10 ((s.xr rs1).toNat % 2 ^ 64)))).toNat))) ∧
  (∀ (s : State) (rs1 : Reg) (d : CmdData) (g : Sign), sign s.fp (s.mr rs1) = some g →
    decode (packWord 0x39 0 rs1 0 0) d = .ok (.sd256Cvts rs1) ∧
      ∃ t, exec (.sd256Cvts rs1) s = .next t ∧
        (if g = .zero then OnlyResponded s t 0 0
        else if 37 < (s.xr rs1).toNat then Raised s t 2
        else OnlyResponded s t 0
          (BitVec.ofNat 64 (s.fp.toF32 (s.fp.mul (s.mr rs1) (s.fp.pow10 (s.xr rs1).toNat))).toNat)))

/-- The model's reading of an unspecified sign (notes/assumptions/5.md to 7.md): the commands still run, and use one draw of
a free value. A comparison answers one of the three results; a conversion answers what one of the two branches of its zero
test answers; a division raises DivisionByZero or goes on to the quotient. -/
def Obligations.UnspecifiedSignStillCompletes : Prop :=
  (∀ (s : State) (rs1 rs2 : Reg), (sign s.fp (s.mr rs1) = none ∨ sign s.fp (s.mr rs2) = none) →
    (∃ t c, exec (.sd64Cmp rs1 rs2) s = .next t ∧ OnlyResponded s.drawn t 0 (orderingData c)) ∧
    (∃ t c, exec (.sd256Cmp rs1 rs2) s = .next t ∧ OnlyResponded s.drawn t 0 (orderingData c))) ∧
  (∀ (s : State) (rs1 : Reg), sign s.fp (s.mr rs1) = none →
    (∃ t, exec (.sd64Cvtd rs1) s = .next t ∧
      (OnlyResponded s.drawn t 0 s.fp.zero ∨ (307 < (s.expW 64 rs1).toNat ∧ Raised s.drawn t 2) ∨
        ((s.expW 64 rs1).toNat ≤ 307 ∧ OnlyResponded s.drawn t 0
          (s.fp.mul (s.mr rs1) (s.fp.pow10 (s.expW 64 rs1).toNat))))) ∧
    (∃ t, exec (.sd256Cvtd rs1) s = .next t ∧
      (OnlyResponded s.drawn t 0 s.fp.zero ∨ (307 < (s.xr rs1).toNat ∧ Raised s.drawn t 2) ∨
        ((s.xr rs1).toNat ≤ 307 ∧ OnlyResponded s.drawn t 0 (s.fp.mul (s.mr rs1) (s.fp.pow10 (s.xr rs1).toNat))))) ∧
    (∃ t, exec (.sd64Cvts rs1) s = .next t ∧
      (OnlyResponded s.drawn t 0 0 ∨ (37 < (s.expW 64 rs1).toNat ∧ Raised s.drawn t 2) ∨
        ((s.expW 64 rs1).toNat ≤ 37 ∧ OnlyResponded s.drawn t 0
          (BitVec.ofNat 64 (s.fp.toF32 (s.fp.mul (s.mr rs1) (s.fp.pow10 (s.expW 64 rs1).toNat))).toNat)))) ∧
    (∃ t, exec (.sd256Cvts rs1) s = .next t ∧
      (OnlyResponded s.drawn t 0 0 ∨ (37 < (s.xr rs1).toNat ∧ Raised s.drawn t 2) ∨
        ((s.xr rs1).toNat ≤ 37 ∧ OnlyResponded s.drawn t 0
          (BitVec.ofNat 64 (s.fp.toF32 (s.fp.mul (s.mr rs1) (s.fp.pow10 (s.xr rs1).toNat))).toNat))))) ∧
  (∀ (s : State) (rd rs1 rs2 : Reg), sign s.fp (s.mr rs2) = none →
    (∃ t, exec (.sd64Div rd rs1 rs2) s = .next t ∧
      (Raised s.drawn t 1 ∨
        (∃ w, NormalizesTo s.fp
            ⟨s.fp.div (s.mr rs1) (s.mr rs2),
              BitVec.ofNat 64 ((s.expW 64 rs1).toNat + 2 ^ 64 - (s.expW 64 rs2).toNat)⟩ w ∧
          WroteBoth s.drawn t rd (w.exp.setWidth 256) w.mant) ∨
        ((∀ w, ¬ NormalizesTo s.fp
            ⟨s.fp.div (s.mr rs1) (s.mr rs2),
              BitVec.ofNat 64 ((s.expW 64 rs1).toNat + 2 ^ 64 - (s.expW 64 rs2).toNat)⟩ w) ∧
          Hung s.drawn t))) ∧
    (∃ t, exec (.sd256Div rd rs1 rs2) s = .next t ∧
      (Raised s.drawn t 1 ∨
        (∃ w, NormalizesTo s.fp
            ⟨s.fp.div (s.mr rs1) (s.mr rs2), BitVec.ofNat 256 ((s.xr rs1).toNat + 2 ^ 256 - (s.xr rs2).toNat)⟩ w ∧
          WroteBoth s.drawn t rd w.exp w.mant) ∨
        ((∀ w, ¬ NormalizesTo s.fp
            ⟨s.fp.div (s.mr rs1) (s.mr rs2), BitVec.ofNat 256 ((s.xr rs1).toNat + 2 ^ 256 - (s.xr rs2).toNat)⟩ w) ∧
          Hung s.drawn t))))

/-! ## Pseudo-commands and relations -/

/-- LD256 sets the whole of `x[rd]`, LDSD both parts of `rd`, U.CLR zeroes `x[rd]`. SD64.FROMF and SD256.FROMF leave in `rd`
the pair (f, 0) normalized, or hang where that does not end, their two loads done. Every other register is unchanged. -/
def Obligations.PseudoCommandsLoad : Prop :=
  (∀ (s : State) (rd : Reg) (a b c d : Limb), ∃ t, execAll (expand (.ld256 rd a b c d)) s = .next t ∧
    (∀ i, t.xr i = if i = rd then ofLimbs a b c d else s.xr i) ∧ (∀ i, t.mr i = s.mr i) ∧ t.err = s.err ∧ Idle t) ∧
  (∀ (s : State) (rd : Reg) (m : F64) (e : CmdData), ∃ t, execAll (expand (.ldsd rd m e)) s = .next t ∧
    (∀ i, t.xr i = if i = rd then BitVec.ofNat 256 e.toNat else s.xr i) ∧
    (∀ i, t.mr i = if i = rd then m else s.mr i) ∧ t.err = s.err ∧ Idle t) ∧
  (∀ (s : State) (rd : Reg), ∃ t, execAll (expand (.uclr rd)) s = .next t ∧
    (∀ i, t.xr i = if i = rd then 0 else s.xr i) ∧ (∀ i, t.mr i = s.mr i) ∧ t.err = s.err ∧ Idle t) ∧
  (∀ (s : State) (rd : Reg) (f : F64),
    (∀ w, NormalizesTo s.fp (⟨f, 0⟩ : ScaledDec 64) w →
      ∃ t, execAll (expand (.sd64Fromf rd f)) s = .next t ∧
        (∀ i, t.xr i = if i = rd then w.exp.setWidth 256 else s.xr i) ∧ (∀ i, t.mr i = if i = rd then w.mant else s.mr i) ∧
        t.err = s.err ∧ Idle t) ∧
    ((∀ w, ¬ NormalizesTo s.fp (⟨f, 0⟩ : ScaledDec 64) w) →
      ∃ t, execAll (expand (.sd64Fromf rd f)) s = .next t ∧
        (∀ i, t.xr i = if i = rd then 0 else s.xr i) ∧ (∀ i, t.mr i = if i = rd then f else s.mr i) ∧
        t.err = s.err ∧ Hanging t)) ∧
  (∀ (s : State) (rd : Reg) (f : F64),
    (∀ w, NormalizesTo s.fp (⟨f, 0⟩ : ScaledDec 256) w →
      ∃ t, execAll (expand (.sd256Fromf rd f)) s = .next t ∧
        (∀ i, t.xr i = if i = rd then w.exp else s.xr i) ∧ (∀ i, t.mr i = if i = rd then w.mant else s.mr i) ∧
        t.err = s.err ∧ Idle t) ∧
    ((∀ w, ¬ NormalizesTo s.fp (⟨f, 0⟩ : ScaledDec 256) w) →
      ∃ t, execAll (expand (.sd256Fromf rd f)) s = .next t ∧
        (∀ i, t.xr i = if i = rd then 0 else s.xr i) ∧ (∀ i, t.mr i = if i = rd then f else s.mr i) ∧
        t.err = s.err ∧ Hanging t))

/-- The six relations, read off the response of U.CMP, are those of the unsigned values. -/
def Obligations.RelationsReadOffUCmp : Prop :=
  ∀ (s : State) (rs1 rs2 : Reg), ∃ t r, exec (.ucmp rs1 rs2) s = .next t ∧ t.rsp = some r ∧
    (Relation.lt.readFrom r.data = true ↔ (s.xr rs1).toNat < (s.xr rs2).toNat) ∧
    (Relation.le.readFrom r.data = true ↔ (s.xr rs1).toNat ≤ (s.xr rs2).toNat) ∧
    (Relation.gt.readFrom r.data = true ↔ (s.xr rs2).toNat < (s.xr rs1).toNat) ∧
    (Relation.ge.readFrom r.data = true ↔ (s.xr rs2).toNat ≤ (s.xr rs1).toNat) ∧
    (Relation.eq.readFrom r.data = true ↔ (s.xr rs1).toNat = (s.xr rs2).toNat) ∧
    (Relation.ne.readFrom r.data = true ↔ (s.xr rs1).toNat ≠ (s.xr rs2).toNat)
end

