-- ==== Sys2Proof/Laws/Decode.lean ====
section
/-! SUPPORT. The fields of an encoded word, and what the decoder makes of a word of each format. -/

namespace Sys2Proof

/-! ## The fields of a packed word (30_encoding.md R71, R76) -/

section
variable (op : BitVec 8) (rd rs1 rs2 : Reg) (imm : BitVec 12)

@[simp] theorem opcodeOf_packWord : opcodeOf (packWord op rd rs1 rs2 imm) = op := by
  apply BitVec.eq_of_getLsbD_eq
  intro i hi
  interval_cases i <;> simp [opcodeOf, packWord, regField]

@[simp] theorem rdOf_packWord : rdOf (packWord op rd rs1 rs2 imm) = rd := by
  rw [← BitVec.toFin_ofFin (w := 3) rd]
  unfold rdOf
  congr 1
  apply BitVec.eq_of_getLsbD_eq
  intro i hi
  interval_cases i <;> simp [packWord, regField]

@[simp] theorem rs1Of_packWord : rs1Of (packWord op rd rs1 rs2 imm) = rs1 := by
  rw [← BitVec.toFin_ofFin (w := 3) rs1]
  unfold rs1Of
  congr 1
  apply BitVec.eq_of_getLsbD_eq
  intro i hi
  interval_cases i <;> simp [packWord, regField]

@[simp] theorem rs2Of_packWord : rs2Of (packWord op rd rs1 rs2 imm) = rs2 := by
  rw [← BitVec.toFin_ofFin (w := 3) rs2]
  unfold rs2Of
  congr 1
  apply BitVec.eq_of_getLsbD_eq
  intro i hi
  interval_cases i <;> simp [packWord, regField]

@[simp] theorem imm12Of_packWord : imm12Of (packWord op rd rs1 rs2 imm) = imm := by
  apply BitVec.eq_of_getLsbD_eq
  intro i hi
  interval_cases i <;> simp [imm12Of, packWord]

end

@[simp] theorem limbOf_packWord (op : BitVec 8) (rd rs1 rs2 : Reg) (k : LimbIx) :
    limbOf (packWord op rd rs1 rs2 (limbField k)) = k := by
  rw [← BitVec.toFin_ofFin (w := 2) k]
  unfold limbOf
  congr 1
  apply BitVec.eq_of_getLsbD_eq
  intro i hi
  interval_cases i <;> simp [packWord, limbField]

/-! ## A packed word matches its row: one lemma a format (R72) -/

section
variable (op : BitVec 8) (rd rs1 rs2 : Reg)

theorem packWord_matches_n : packWord op 0 0 0 0 &&& formatMask .n = matchWord op := by
  apply BitVec.eq_of_getLsbD_eq
  intro i hi
  interval_cases i <;> simp [packWord, regField, formatMask, matchWord]

theorem packWord_matches_d : packWord op rd 0 0 0 &&& formatMask .d = matchWord op := by
  apply BitVec.eq_of_getLsbD_eq
  intro i hi
  interval_cases i <;> simp [packWord, regField, formatMask, matchWord]

theorem packWord_matches_dl (k : LimbIx) : packWord op rd 0 0 (limbField k) &&& formatMask .dl = matchWord op := by
  apply BitVec.eq_of_getLsbD_eq
  intro i hi
  interval_cases i <;> simp [packWord, regField, limbField, formatMask, matchWord]

theorem packWord_matches_s : packWord op 0 rs1 0 0 &&& formatMask .s = matchWord op := by
  apply BitVec.eq_of_getLsbD_eq
  intro i hi
  interval_cases i <;> simp [packWord, regField, formatMask, matchWord]

theorem packWord_matches_sl (k : LimbIx) : packWord op 0 rs1 0 (limbField k) &&& formatMask .sl = matchWord op := by
  apply BitVec.eq_of_getLsbD_eq
  intro i hi
  interval_cases i <;> simp [packWord, regField, limbField, formatMask, matchWord]

theorem packWord_matches_r2 : packWord op rd rs1 0 0 &&& formatMask .r2 = matchWord op := by
  apply BitVec.eq_of_getLsbD_eq
  intro i hi
  interval_cases i <;> simp [packWord, regField, formatMask, matchWord]

theorem packWord_matches_r3 : packWord op rd rs1 rs2 0 &&& formatMask .r3 = matchWord op := by
  apply BitVec.eq_of_getLsbD_eq
  intro i hi
  interval_cases i <;> simp [packWord, regField, formatMask, matchWord]

theorem packWord_matches_c : packWord op 0 rs1 rs2 0 &&& formatMask .c = matchWord op := by
  apply BitVec.eq_of_getLsbD_eq
  intro i hi
  interval_cases i <;> simp [packWord, regField, formatMask, matchWord]

theorem packWord_matches_i (imm : BitVec 12) : packWord op rd rs1 0 imm &&& formatMask .i = matchWord op := by
  apply BitVec.eq_of_getLsbD_eq
  intro i hi
  interval_cases i <;> simp [packWord, regField, formatMask, matchWord]

end

/-! ## The decoder on a word of each format -/

/-- The decoder on a word that matches the row of its opcode. -/
theorem decode_of_row {w : CmdWord} {r : Row} (d : CmdData) (h : rowOf (opcodeOf w) = some r)
    (hm : w &&& formatMask r.format = matchWord (opcodeOf w)) : decode w d = .ok (r.build w d) := by
  simp [decode, h, hm]

/-- What the decoder can answer. -/
theorem decode_cases (w : CmdWord) (d : CmdData) :
    (rowOf (opcodeOf w) = none ∧ decode w d = .illegal (.unassignedOpcode (opcodeOf w))) ∨
      ∃ r, rowOf (opcodeOf w) = some r ∧
        ((w &&& formatMask r.format = matchWord (opcodeOf w) ∧ decode w d = .ok (r.build w d)) ∨
          (w &&& formatMask r.format ≠ matchWord (opcodeOf w) ∧
            decode w d = .illegal (.unusedBitsSet (opcodeOf w)))) := by
  cases h : rowOf (opcodeOf w) with
  | none => exact .inl ⟨rfl, by simp [decode, h]⟩
  | some r =>
    refine .inr ⟨r, rfl, ?_⟩
    by_cases hm : w &&& formatMask r.format = matchWord (opcodeOf w)
    · exact .inl ⟨hm, decode_of_row d h hm⟩
    · exact .inr ⟨hm, by simp [decode, h, hm]⟩

section
variable {op : BitVec 8} {r : Row} (d : CmdData) (rd rs1 rs2 : Reg)

theorem decode_packWord {imm : BitVec 12} (h : rowOf op = some r)
    (hm : packWord op rd rs1 rs2 imm &&& formatMask r.format = matchWord op) :
    decode (packWord op rd rs1 rs2 imm) d = .ok (r.build (packWord op rd rs1 rs2 imm) d) :=
  decode_of_row d (by simpa using h) (by simpa using hm)

theorem decode_n {i : Instr} (h : rowOf op = some (rowN i)) : decode (packWord op 0 0 0 0) d = .ok i :=
  decode_packWord d 0 0 0 h (packWord_matches_n op)

theorem decode_d {mk : Reg → CmdData → Instr} (h : rowOf op = some (rowD mk)) :
    decode (packWord op rd 0 0 0) d = .ok (mk rd d) := by
  rw [decode_packWord d rd 0 0 h (packWord_matches_d op rd)]
  simp [rowD]

theorem decode_dl {mk : Reg → LimbIx → CmdData → Instr} (k : LimbIx) (h : rowOf op = some (rowDL mk)) :
    decode (packWord op rd 0 0 (limbField k)) d = .ok (mk rd k d) := by
  rw [decode_packWord d rd 0 0 h (packWord_matches_dl op rd k)]
  simp [rowDL]

theorem decode_s {mk : Reg → Instr} (h : rowOf op = some (rowS mk)) :
    decode (packWord op 0 rs1 0 0) d = .ok (mk rs1) := by
  rw [decode_packWord d 0 rs1 0 h (packWord_matches_s op rs1)]
  simp [rowS]

theorem decode_sl {mk : Reg → LimbIx → Instr} (k : LimbIx) (h : rowOf op = some (rowSL mk)) :
    decode (packWord op 0 rs1 0 (limbField k)) d = .ok (mk rs1 k) := by
  rw [decode_packWord d 0 rs1 0 h (packWord_matches_sl op rs1 k)]
  simp [rowSL]

theorem decode_r2 {mk : Reg → Reg → Instr} (h : rowOf op = some (rowR2 mk)) :
    decode (packWord op rd rs1 0 0) d = .ok (mk rd rs1) := by
  rw [decode_packWord d rd rs1 0 h (packWord_matches_r2 op rd rs1)]
  simp [rowR2]

theorem decode_r3 {mk : Reg → Reg → Reg → Instr} (h : rowOf op = some (rowR3 mk)) :
    decode (packWord op rd rs1 rs2 0) d = .ok (mk rd rs1 rs2) := by
  rw [decode_packWord d rd rs1 rs2 h (packWord_matches_r3 op rd rs1 rs2)]
  simp [rowR3]

theorem decode_c {mk : Reg → Reg → Instr} (h : rowOf op = some (rowC mk)) :
    decode (packWord op 0 rs1 rs2 0) d = .ok (mk rs1 rs2) := by
  rw [decode_packWord d 0 rs1 rs2 h (packWord_matches_c op rs1 rs2)]
  simp [rowC]

theorem decode_i {mk : Reg → Reg → Nat → Instr} (count : Nat) (hc : count < 4096) (h : rowOf op = some (rowI mk)) :
    decode (packWord op rd rs1 0 (BitVec.ofNat 12 count)) d = .ok (mk rd rs1 count) := by
  rw [decode_packWord d rd rs1 0 h (packWord_matches_i op rd rs1 _)]
  simp [rowI, Nat.mod_eq_of_lt hc]

end

end Sys2Proof
end

