-- ==== Sys2Proof/Laws/State.lean ====
section
/-! SUPPORT. One lemma a field for each update of the state, true by unfolding, and the reads of a register after each. -/

namespace Sys2Proof.Machine

variable (s : State)

/-! ### setX -/

@[simp] theorem State.setX_x (i : Reg) (v : U256) : (s.setX i v).x = s.x.set i.val v i.isLt := rfl
@[simp] theorem State.setX_m (i : Reg) (v : U256) : (s.setX i v).m = s.m := rfl
@[simp] theorem State.setX_err (i : Reg) (v : U256) : (s.setX i v).err = s.err := rfl
@[simp] theorem State.setX_busy (i : Reg) (v : U256) : (s.setX i v).busy = s.busy := rfl
@[simp] theorem State.setX_rsp (i : Reg) (v : U256) : (s.setX i v).rsp = s.rsp := rfl
@[simp] theorem State.setX_pins (i : Reg) (v : U256) : (s.setX i v).pins = s.pins := rfl
@[simp] theorem State.setX_received (i : Reg) (v : U256) : (s.setX i v).received = s.received := rfl
@[simp] theorem State.setX_fpSel (i : Reg) (v : U256) : (s.setX i v).fpSel = s.fpSel := rfl
@[simp] theorem State.setX_free (i : Reg) (v : U256) : (s.setX i v).free = s.free := rfl
@[simp] theorem State.setX_fp (i : Reg) (v : U256) : (s.setX i v).fp = s.fp := rfl
@[simp] theorem State.setX_mr (i : Reg) (v : U256) (j : Reg) : (s.setX i v).mr j = s.mr j := rfl

/-! ### setM -/

@[simp] theorem State.setM_x (i : Reg) (v : F64) : (s.setM i v).x = s.x := rfl
@[simp] theorem State.setM_m (i : Reg) (v : F64) : (s.setM i v).m = s.m.set i.val v i.isLt := rfl
@[simp] theorem State.setM_err (i : Reg) (v : F64) : (s.setM i v).err = s.err := rfl
@[simp] theorem State.setM_busy (i : Reg) (v : F64) : (s.setM i v).busy = s.busy := rfl
@[simp] theorem State.setM_rsp (i : Reg) (v : F64) : (s.setM i v).rsp = s.rsp := rfl
@[simp] theorem State.setM_pins (i : Reg) (v : F64) : (s.setM i v).pins = s.pins := rfl
@[simp] theorem State.setM_received (i : Reg) (v : F64) : (s.setM i v).received = s.received := rfl
@[simp] theorem State.setM_fpSel (i : Reg) (v : F64) : (s.setM i v).fpSel = s.fpSel := rfl
@[simp] theorem State.setM_free (i : Reg) (v : F64) : (s.setM i v).free = s.free := rfl
@[simp] theorem State.setM_fp (i : Reg) (v : F64) : (s.setM i v).fp = s.fp := rfl
@[simp] theorem State.setM_xr (i : Reg) (v : F64) (j : Reg) : (s.setM i v).xr j = s.xr j := rfl
@[simp] theorem State.setM_expW (i : Reg) (v : F64) (w : Nat) (j : Reg) : (s.setM i v).expW w j = s.expW w j := rfl

/-! ### respond -/

@[simp] theorem State.respond_x (c : BitVec 3) (d : BitVec 64) : (s.respond c d).x = s.x := rfl
@[simp] theorem State.respond_m (c : BitVec 3) (d : BitVec 64) : (s.respond c d).m = s.m := rfl
@[simp] theorem State.respond_err (c : BitVec 3) (d : BitVec 64) : (s.respond c d).err = s.err := rfl
@[simp] theorem State.respond_busy (c : BitVec 3) (d : BitVec 64) : (s.respond c d).busy = true := rfl
@[simp] theorem State.respond_rsp (c : BitVec 3) (d : BitVec 64) : (s.respond c d).rsp = some ⟨c, d⟩ := rfl
@[simp] theorem State.respond_pins (c : BitVec 3) (d : BitVec 64) : (s.respond c d).pins = s.pins := rfl
@[simp] theorem State.respond_received (c : BitVec 3) (d : BitVec 64) : (s.respond c d).received = s.received := rfl
@[simp] theorem State.respond_fpSel (c : BitVec 3) (d : BitVec 64) : (s.respond c d).fpSel = s.fpSel := rfl
@[simp] theorem State.respond_free (c : BitVec 3) (d : BitVec 64) : (s.respond c d).free = s.free := rfl
@[simp] theorem State.respond_fp (c : BitVec 3) (d : BitVec 64) : (s.respond c d).fp = s.fp := rfl
@[simp] theorem State.respond_xr (c : BitVec 3) (d : BitVec 64) (j : Reg) : (s.respond c d).xr j = s.xr j := rfl
@[simp] theorem State.respond_mr (c : BitVec 3) (d : BitVec 64) (j : Reg) : (s.respond c d).mr j = s.mr j := rfl
@[simp] theorem State.respond_expW (c : BitVec 3) (d : BitVec 64) (w : Nat) (j : Reg) : (s.respond c d).expW w j = s.expW w j := rfl
@[simp] theorem State.respond_sd (c : BitVec 3) (d : BitVec 64) (w : Nat) (j : Reg) : (s.respond c d).sd w j = s.sd w j := rfl

/-! ### respondOk -/

@[simp] theorem State.respondOk_x : (s.respondOk).x = s.x := rfl
@[simp] theorem State.respondOk_m : (s.respondOk).m = s.m := rfl
@[simp] theorem State.respondOk_err : (s.respondOk).err = s.err := rfl
@[simp] theorem State.respondOk_busy : (s.respondOk).busy = true := rfl
@[simp] theorem State.respondOk_rsp : (s.respondOk).rsp = some ⟨0, 0⟩ := rfl
@[simp] theorem State.respondOk_pins : (s.respondOk).pins = s.pins := rfl
@[simp] theorem State.respondOk_received : (s.respondOk).received = s.received := rfl
@[simp] theorem State.respondOk_fpSel : (s.respondOk).fpSel = s.fpSel := rfl
@[simp] theorem State.respondOk_free : (s.respondOk).free = s.free := rfl
@[simp] theorem State.respondOk_fp : (s.respondOk).fp = s.fp := rfl
@[simp] theorem State.respondOk_xr (j : Reg) : (s.respondOk).xr j = s.xr j := rfl
@[simp] theorem State.respondOk_mr (j : Reg) : (s.respondOk).mr j = s.mr j := rfl
@[simp] theorem State.respondOk_expW (w : Nat) (j : Reg) : (s.respondOk).expW w j = s.expW w j := rfl
@[simp] theorem State.respondOk_sd (w : Nat) (j : Reg) : (s.respondOk).sd w j = s.sd w j := rfl

/-! ### raise -/

@[simp] theorem State.raise_x (c : FaultCode) : (s.raise c).x = s.x := rfl
@[simp] theorem State.raise_m (c : FaultCode) : (s.raise c).m = s.m := rfl
@[simp] theorem State.raise_err (c : FaultCode) : (s.raise c).err = if s.err = 0 then c.code else s.err := rfl
@[simp] theorem State.raise_busy (c : FaultCode) : (s.raise c).busy = true := rfl
@[simp] theorem State.raise_rsp (c : FaultCode) : (s.raise c).rsp = some ⟨c.code, 0⟩ := rfl
@[simp] theorem State.raise_pins (c : FaultCode) : (s.raise c).pins = s.pins := rfl
@[simp] theorem State.raise_received (c : FaultCode) : (s.raise c).received = s.received := rfl
@[simp] theorem State.raise_fpSel (c : FaultCode) : (s.raise c).fpSel = s.fpSel := rfl
@[simp] theorem State.raise_free (c : FaultCode) : (s.raise c).free = s.free := rfl
@[simp] theorem State.raise_fp (c : FaultCode) : (s.raise c).fp = s.fp := rfl
@[simp] theorem State.raise_xr (c : FaultCode) (j : Reg) : (s.raise c).xr j = s.xr j := rfl
@[simp] theorem State.raise_mr (c : FaultCode) (j : Reg) : (s.raise c).mr j = s.mr j := rfl
@[simp] theorem State.raise_expW (c : FaultCode) (w : Nat) (j : Reg) : (s.raise c).expW w j = s.expW w j := rfl
@[simp] theorem State.raise_sd (c : FaultCode) (w : Nat) (j : Reg) : (s.raise c).sd w j = s.sd w j := rfl

/-! ### clearErr -/

@[simp] theorem State.clearErr_x : (s.clearErr).x = s.x := rfl
@[simp] theorem State.clearErr_m : (s.clearErr).m = s.m := rfl
@[simp] theorem State.clearErr_err : (s.clearErr).err = 0 := rfl
@[simp] theorem State.clearErr_busy : (s.clearErr).busy = s.busy := rfl
@[simp] theorem State.clearErr_rsp : (s.clearErr).rsp = s.rsp := rfl
@[simp] theorem State.clearErr_pins : (s.clearErr).pins = s.pins := rfl
@[simp] theorem State.clearErr_received : (s.clearErr).received = s.received := rfl
@[simp] theorem State.clearErr_fpSel : (s.clearErr).fpSel = s.fpSel := rfl
@[simp] theorem State.clearErr_free : (s.clearErr).free = s.free := rfl
@[simp] theorem State.clearErr_fp : (s.clearErr).fp = s.fp := rfl
@[simp] theorem State.clearErr_xr (j : Reg) : (s.clearErr).xr j = s.xr j := rfl
@[simp] theorem State.clearErr_mr (j : Reg) : (s.clearErr).mr j = s.mr j := rfl
@[simp] theorem State.clearErr_expW (w : Nat) (j : Reg) : (s.clearErr).expW w j = s.expW w j := rfl
@[simp] theorem State.clearErr_sd (w : Nat) (j : Reg) : (s.clearErr).sd w j = s.sd w j := rfl

/-! ### hang -/

@[simp] theorem State.hang_x : (s.hang).x = s.x := rfl
@[simp] theorem State.hang_m : (s.hang).m = s.m := rfl
@[simp] theorem State.hang_err : (s.hang).err = s.err := rfl
@[simp] theorem State.hang_busy : (s.hang).busy = true := rfl
@[simp] theorem State.hang_rsp : (s.hang).rsp = none := rfl
@[simp] theorem State.hang_pins : (s.hang).pins = s.pins := rfl
@[simp] theorem State.hang_received : (s.hang).received = s.received := rfl
@[simp] theorem State.hang_fpSel : (s.hang).fpSel = s.fpSel := rfl
@[simp] theorem State.hang_free : (s.hang).free = s.free := rfl
@[simp] theorem State.hang_fp : (s.hang).fp = s.fp := rfl
@[simp] theorem State.hang_xr (j : Reg) : (s.hang).xr j = s.xr j := rfl
@[simp] theorem State.hang_mr (j : Reg) : (s.hang).mr j = s.mr j := rfl
@[simp] theorem State.hang_expW (w : Nat) (j : Reg) : (s.hang).expW w j = s.expW w j := rfl
@[simp] theorem State.hang_sd (w : Nat) (j : Reg) : (s.hang).sd w j = s.sd w j := rfl

/-! ### drawn -/

@[simp] theorem State.drawn_x : (s.drawn).x = s.x := rfl
@[simp] theorem State.drawn_m : (s.drawn).m = s.m := rfl
@[simp] theorem State.drawn_err : (s.drawn).err = s.err := rfl
@[simp] theorem State.drawn_busy : (s.drawn).busy = s.busy := rfl
@[simp] theorem State.drawn_rsp : (s.drawn).rsp = s.rsp := rfl
@[simp] theorem State.drawn_pins : (s.drawn).pins = s.pins := rfl
@[simp] theorem State.drawn_received : (s.drawn).received = s.received := rfl
@[simp] theorem State.drawn_fpSel : (s.drawn).fpSel = s.fpSel := rfl
@[simp] theorem State.drawn_free : (s.drawn).free = s.free + 1 := rfl
@[simp] theorem State.drawn_fp : (s.drawn).fp = s.fp := rfl
@[simp] theorem State.drawn_xr (j : Reg) : (s.drawn).xr j = s.xr j := rfl
@[simp] theorem State.drawn_mr (j : Reg) : (s.drawn).mr j = s.mr j := rfl
@[simp] theorem State.drawn_expW (w : Nat) (j : Reg) : (s.drawn).expW w j = s.expW w j := rfl
@[simp] theorem State.drawn_sd (w : Nat) (j : Reg) : (s.drawn).sd w j = s.sd w j := rfl

/-! ### deliver -/

@[simp] theorem State.deliver_x (r : Response) : (s.deliver r).x = s.x := rfl
@[simp] theorem State.deliver_m (r : Response) : (s.deliver r).m = s.m := rfl
@[simp] theorem State.deliver_err (r : Response) : (s.deliver r).err = s.err := rfl
@[simp] theorem State.deliver_busy (r : Response) : (s.deliver r).busy = false := rfl
@[simp] theorem State.deliver_rsp (r : Response) : (s.deliver r).rsp = none := rfl
@[simp] theorem State.deliver_pins (r : Response) : (s.deliver r).pins = s.pins := rfl
@[simp] theorem State.deliver_received (r : Response) : (s.deliver r).received = s.received ++ [r] := rfl
@[simp] theorem State.deliver_fpSel (r : Response) : (s.deliver r).fpSel = s.fpSel := rfl
@[simp] theorem State.deliver_free (r : Response) : (s.deliver r).free = s.free := rfl
@[simp] theorem State.deliver_fp (r : Response) : (s.deliver r).fp = s.fp := rfl
@[simp] theorem State.deliver_xr (r : Response) (j : Reg) : (s.deliver r).xr j = s.xr j := rfl
@[simp] theorem State.deliver_mr (r : Response) (j : Reg) : (s.deliver r).mr j = s.mr j := rfl
@[simp] theorem State.deliver_expW (r : Response) (w : Nat) (j : Reg) : (s.deliver r).expW w j = s.expW w j := rfl
@[simp] theorem State.deliver_sd (r : Response) (w : Nat) (j : Reg) : (s.deliver r).sd w j = s.sd w j := rfl

/-! ### resetBlock -/

@[simp] theorem State.resetBlock_x : (s.resetBlock).x = Vector.replicate 8 0#256 := rfl
@[simp] theorem State.resetBlock_m : (s.resetBlock).m = Vector.replicate 8 0#64 := rfl
@[simp] theorem State.resetBlock_err : (s.resetBlock).err = 0 := rfl
@[simp] theorem State.resetBlock_busy : (s.resetBlock).busy = false := rfl
@[simp] theorem State.resetBlock_rsp : (s.resetBlock).rsp = none := rfl
@[simp] theorem State.resetBlock_pins : (s.resetBlock).pins = s.pins := rfl
@[simp] theorem State.resetBlock_received : (s.resetBlock).received = s.received := rfl
@[simp] theorem State.resetBlock_fpSel : (s.resetBlock).fpSel = s.fpSel := rfl
@[simp] theorem State.resetBlock_free : (s.resetBlock).free = s.free := rfl
@[simp] theorem State.resetBlock_fp : (s.resetBlock).fp = s.fp := rfl

/-! ### offer -/

@[simp] theorem State.offer_x (w : CmdWord) (d : CmdData) : (s.offer w d).x = s.x := rfl
@[simp] theorem State.offer_m (w : CmdWord) (d : CmdData) : (s.offer w d).m = s.m := rfl
@[simp] theorem State.offer_err (w : CmdWord) (d : CmdData) : (s.offer w d).err = s.err := rfl
@[simp] theorem State.offer_busy (w : CmdWord) (d : CmdData) : (s.offer w d).busy = false := rfl
@[simp] theorem State.offer_rsp (w : CmdWord) (d : CmdData) : (s.offer w d).rsp = none := rfl
@[simp] theorem State.offer_pins (w : CmdWord) (d : CmdData) : (s.offer w d).pins = commandPins w d :: s.pins := rfl
@[simp] theorem State.offer_received (w : CmdWord) (d : CmdData) : (s.offer w d).received = s.received := rfl
@[simp] theorem State.offer_fpSel (w : CmdWord) (d : CmdData) : (s.offer w d).fpSel = s.fpSel := rfl
@[simp] theorem State.offer_free (w : CmdWord) (d : CmdData) : (s.offer w d).free = s.free := rfl
@[simp] theorem State.offer_fp (w : CmdWord) (d : CmdData) : (s.offer w d).fp = s.fp := rfl
@[simp] theorem State.offer_xr (w : CmdWord) (d : CmdData) (j : Reg) : (s.offer w d).xr j = s.xr j := rfl
@[simp] theorem State.offer_mr (w : CmdWord) (d : CmdData) (j : Reg) : (s.offer w d).mr j = s.mr j := rfl
@[simp] theorem State.offer_expW (w : CmdWord) (d : CmdData) (n : Nat) (j : Reg) : (s.offer w d).expW n j = s.expW n j := rfl
@[simp] theorem State.offer_sd (w : CmdWord) (d : CmdData) (n : Nat) (j : Reg) : (s.offer w d).sd n j = s.sd n j := rfl

/-! ### Reads of a written register -/

/-- What `x[j]` is after `x[i] <- v`. -/
@[simp] theorem State.setX_xr (i : Reg) (v : U256) (j : Reg) : (s.setX i v).xr j = if j = i then v else s.xr j := by
  simp only [State.xr, State.setX, Fin.getElem_fin, Vector.getElem_set, Fin.ext_iff, eq_comm]

/-- What `m[j]` is after `m[i] <- v`. -/
@[simp] theorem State.setM_mr (i : Reg) (v : F64) (j : Reg) : (s.setM i v).mr j = if j = i then v else s.mr j := by
  simp only [State.mr, State.setM, Fin.getElem_fin, Vector.getElem_set, Fin.ext_iff, eq_comm]

/-- Every integer part is 0 after reset. -/
@[simp] theorem State.resetBlock_xr (j : Reg) : s.resetBlock.xr j = 0 := by
  simp [State.xr]

/-- Every mantissa part is 0 after reset. -/
@[simp] theorem State.resetBlock_mr (j : Reg) : s.resetBlock.mr j = 0 := by
  simp [State.mr]

/-! ### putSd -/

@[simp] theorem State.putSd_err {n : Nat} (d : Reg) (v : ScaledDec n) : (s.putSd d v).err = s.err := rfl
@[simp] theorem State.putSd_busy {n : Nat} (d : Reg) (v : ScaledDec n) : (s.putSd d v).busy = s.busy := rfl
@[simp] theorem State.putSd_rsp {n : Nat} (d : Reg) (v : ScaledDec n) : (s.putSd d v).rsp = s.rsp := rfl
@[simp] theorem State.putSd_pins {n : Nat} (d : Reg) (v : ScaledDec n) : (s.putSd d v).pins = s.pins := rfl
@[simp] theorem State.putSd_received {n : Nat} (d : Reg) (v : ScaledDec n) : (s.putSd d v).received = s.received := rfl
@[simp] theorem State.putSd_fpSel {n : Nat} (d : Reg) (v : ScaledDec n) : (s.putSd d v).fpSel = s.fpSel := rfl
@[simp] theorem State.putSd_free {n : Nat} (d : Reg) (v : ScaledDec n) : (s.putSd d v).free = s.free := rfl
@[simp] theorem State.putSd_fp {n : Nat} (d : Reg) (v : ScaledDec n) : (s.putSd d v).fp = s.fp := rfl

/-- The integer part after `put_sd_W`: the exponent, zero-extended. -/
@[simp] theorem State.putSd_xr {n : Nat} (d : Reg) (v : ScaledDec n) (j : Reg) :
    (s.putSd d v).xr j = if j = d then v.exp.setWidth 256 else s.xr j := by
  simp [State.putSd]

/-- The mantissa part after `put_sd_W`. -/
@[simp] theorem State.putSd_mr {n : Nat} (d : Reg) (v : ScaledDec n) (j : Reg) :
    (s.putSd d v).mr j = if j = d then v.mant else s.mr j := by
  simp [State.putSd]

/-! ### The state after reset -/

@[simp] theorem State.reset_err : State.reset.err = 0 := rfl
@[simp] theorem State.reset_busy : State.reset.busy = false := rfl
@[simp] theorem State.reset_rsp : State.reset.rsp = none := rfl
@[simp] theorem State.reset_pins : State.reset.pins = [] := rfl
@[simp] theorem State.reset_received : State.reset.received = [] := rfl
@[simp] theorem State.reset_fpSel : State.reset.fpSel = .ieee754 := rfl
@[simp] theorem State.reset_fp : State.reset.fp = ieeeFp := rfl

end Sys2Proof.Machine
end

