-- ==== Sys2Proof/Laws/Ops.lean ====
section
/-! SUPPORT. For each shared operation, once, everything it can do. -/

namespace Sys2Proof.Machine

variable {n : Nat} {s t : State}

/-! ## Ends of commands -/

/-- A response changes nothing but the port and BUSY. -/
theorem respond_onlyResponded (s : State) (c : BitVec 3) (d : BitVec 64) : OnlyResponded s (s.respond c d) c d :=
  ⟨⟨fun _ => rfl, fun _ => rfl⟩, rfl, ⟨rfl, rfl⟩, ⟨rfl, rfl, rfl, rfl⟩⟩

/-- The fault procedure does what R274 says. -/
theorem raise_raised (s : State) (c : FaultCode) : Raised s (s.raise c) c.code :=
  ⟨⟨fun _ => rfl, fun _ => rfl⟩, rfl, ⟨rfl, rfl⟩, ⟨rfl, rfl, rfl, rfl⟩⟩

/-- A hang does what R279 says. -/
theorem hang_hung (s : State) : Hung s s.hang :=
  ⟨⟨fun _ => rfl, fun _ => rfl⟩, rfl, rfl, rfl, ⟨rfl, rfl, rfl, rfl⟩⟩

/-- A U256 command with a destination writes `x[rd]` and nothing else. -/
theorem finishX_wroteX (s : State) (rd : Reg) (v : U256) :
    ∃ t, s.finishX rd v = .next t ∧ WroteX s t rd v :=
  ⟨_, rfl, by intro i; simp [State.respondOk], fun _ => rfl, rfl, ⟨rfl, rfl⟩, ⟨rfl, rfl, rfl, rfl⟩⟩

/-- The write of a scaled decimal, with its response, writes both parts of the register and nothing else. -/
theorem putSd_wroteBoth (s : State) (rd : Reg) (v : ScaledDec n) :
    WroteBoth s (s.putSd rd v).respondOk rd (v.exp.setWidth 256) v.mant :=
  ⟨by intro i; simp [State.respondOk], by intro i; simp [State.respondOk], rfl, ⟨rfl, rfl⟩, ⟨rfl, rfl, rfl, rfl⟩⟩

/-- An SD command with a destination writes the value computed, or hangs. -/
theorem finishSd_cases (s : State) (rd : Reg) (v : Option (ScaledDec n)) :
    (∃ w, v = some w ∧ s.finishSd rd v = (s.putSd rd w).respondOk) ∨ (v = none ∧ s.finishSd rd v = s.hang) := by
  cases v with
  | some w => exact .inl ⟨w, rfl, rfl⟩
  | none => exact .inr ⟨rfl, rfl⟩

@[simp] theorem finishSd_some (s : State) (rd : Reg) (w : ScaledDec n) :
    s.finishSd rd (some w) = (s.putSd rd w).respondOk := rfl

@[simp] theorem finishSd_none (s : State) (rd : Reg) : s.finishSd (n := n) rd none = s.hang := rfl

/-! ## The zero test -/

/-- The zero test answers the sign's question where there is a sign, and draws a free value where there is none. -/
theorem zeroTest_cases (s : State) (a : F64) :
    (∃ g, sign s.fp a = some g ∧ s.zeroTest a = (g == .zero, s)) ∨
      (sign s.fp a = none ∧ s.zeroTest a = (Config.freeZeroTest s.free, s.drawn)) := by
  unfold State.zeroTest
  cases h : sign s.fp a with
  | some g => exact .inl ⟨g, rfl, rfl⟩
  | none => exact .inr ⟨rfl, rfl⟩

/-- Whatever the zero test answers, its state differs from `s` at most in the draw number. -/
theorem zeroTest_state (s : State) (a : F64) : (s.zeroTest a).2 = s ∨ (s.zeroTest a).2 = s.drawn := by
  rcases zeroTest_cases s a with ⟨g, _, h⟩ | ⟨_, h⟩ <;> simp [h]

/-! ## The sign (R192) -/

/-- A sign of zero is equality with `FP.ZERO`. -/
theorem sign_eq_zero_iff (fp : FP) (a : F64) : sign fp a = some .zero ↔ fp.eq a fp.zero = true := by
  unfold sign
  split
  · simp [*]
  · split
    · simp [*]
    · split <;> simp [*]

/-! ## The commands for any width -/

/-- What a comparison does: the three-way result, or a free one. -/
theorem sdCmp_cases (n : Nat) (rs1 rs2 : Reg) (s : State) :
    (∃ c, compareSd s.fp (s.sd n rs1) (s.sd n rs2) = some c ∧ sdCmp n rs1 rs2 s = .next (s.respond 0 (orderingData c))) ∨
      (compareSd s.fp (s.sd n rs1) (s.sd n rs2) = none ∧
        sdCmp n rs1 rs2 s = .next (s.drawn.respond 0 (orderingData (Config.freeOrdering s.free)))) := by
  unfold sdCmp
  cases h : compareSd s.fp (s.sd n rs1) (s.sd n rs2) with
  | some c => exact .inl ⟨c, rfl, rfl⟩
  | none => exact .inr ⟨rfl, rfl⟩

/-- A division, its zero test written out. -/
theorem sdDiv_eq (n : Nat) (rd rs1 rs2 : Reg) (s : State) :
    sdDiv n rd rs1 rs2 s =
      if (s.zeroTest (s.mr rs2)).1 then .next ((s.zeroTest (s.mr rs2)).2.raise .divisionByZero)
      else .next ((s.zeroTest (s.mr rs2)).2.finishSd rd (divideSd s.fp (s.sd n rs1) (s.sd n rs2))) := rfl

/-- A conversion, its zero test written out. -/
theorem sdConvert_eq (n limit : Nat) (z : BitVec 64) (f : F64 → BitVec 64) (rs1 : Reg) (s : State) :
    sdConvert n limit z f rs1 s =
      if (s.zeroTest (s.mr rs1)).1 then .next ((s.zeroTest (s.mr rs1)).2.respond 0 z)
      else if limit < (s.expW n rs1).toNat then .next ((s.zeroTest (s.mr rs1)).2.raise .overflow)
      else .next ((s.zeroTest (s.mr rs1)).2.respond 0 (f (realValue s.fp (s.sd n rs1)))) := rfl

/-- What a division does: the fault, a value written, or a hang. -/
theorem sdDiv_cases (n : Nat) (rd rs1 rs2 : Reg) (s : State) :
    ∃ u, (u = s ∨ u = s.drawn) ∧
      (sdDiv n rd rs1 rs2 s = .next (u.raise .divisionByZero) ∨
        sdDiv n rd rs1 rs2 s = .next (u.finishSd rd (divideSd s.fp (s.sd n rs1) (s.sd n rs2)))) := by
  refine ⟨(s.zeroTest (s.mr rs2)).2, zeroTest_state s _, ?_⟩
  rw [sdDiv_eq]
  split
  · exact .inl rfl
  · exact .inr rfl

/-- What a conversion does: the target's zero, Overflow, or the RealValue in the target's form. -/
theorem sdConvert_cases (n limit : Nat) (z : BitVec 64) (f : F64 → BitVec 64) (rs1 : Reg) (s : State) :
    ∃ u, (u = s ∨ u = s.drawn) ∧
      (sdConvert n limit z f rs1 s = .next (u.respond 0 z) ∨
        sdConvert n limit z f rs1 s = .next (u.raise .overflow) ∨
        sdConvert n limit z f rs1 s = .next (u.respond 0 (f (realValue s.fp (s.sd n rs1))))) := by
  refine ⟨(s.zeroTest (s.mr rs1)).2, zeroTest_state s _, ?_⟩
  rw [sdConvert_eq]
  split
  · exact .inl rfl
  · split
    · exact .inr (.inl rfl)
    · exact .inr (.inr rfl)

/-! ## The loops of normalization -/

/-- One turn of step 1. -/
theorem divideLoop_succ (fp : FP) (k : Nat) (v : ScaledDec n) :
    divideLoop fp (k + 1) v =
      if fp.le fp.one (fp.abs v.mant) then
        if fp.div v.mant fp.ten = v.mant then none else divideLoop fp k ⟨fp.div v.mant fp.ten, v.exp + 1⟩
      else some v := rfl

/-- One turn of step 2. -/
theorem multiplyLoop_succ (fp : FP) (k : Nat) (v : ScaledDec n) :
    multiplyLoop fp (k + 1) v =
      if fp.le fp.zero v.mant && fp.lt v.mant fp.tenth then
        if fp.mul v.mant fp.ten = v.mant then none else multiplyLoop fp k ⟨fp.mul v.mant fp.ten, v.exp - 1⟩
      else some v := rfl

/-- What step 1 answers is where the loop of the pseudocode ends. -/
theorem divideLoop_runs (fp : FP) (k : Nat) (v w : ScaledDec n) (h : divideLoop fp k v = some w) : DivideRuns fp v w := by
  induction k generalizing v with
  | zero => simp [divideLoop] at h
  | succ k ih =>
    rw [divideLoop_succ] at h
    split at h
    case isTrue go =>
      split at h
      · cases h
      · exact .turn _ _ go (ih _ h)
    case isFalse stop =>
      cases h
      exact .stop _ (Bool.eq_false_iff.mpr stop)

/-- What step 2 answers is where the loop of the pseudocode ends. -/
theorem multiplyLoop_runs (fp : FP) (k : Nat) (v w : ScaledDec n) (h : multiplyLoop fp k v = some w) :
    MultiplyRuns fp v w := by
  induction k generalizing v with
  | zero => simp [multiplyLoop] at h
  | succ k ih =>
    rw [multiplyLoop_succ] at h
    split at h
    case isTrue go =>
      split at h
      · cases h
      · exact .turn _ _ go (ih _ h)
    case isFalse stop =>
      cases h
      exact .stop _ (Bool.eq_false_iff.mpr stop)

/-! ## The port -/

/-- What an accepted command does: the instruction its word selects, or IllegalCommand. -/
theorem runCommand_cases (w : CmdWord) (d : CmdData) (s : State) :
    (∃ i, decode w d = .ok i ∧ runCommand w d s = exec i s) ∨
      (∃ r, decode w d = .illegal r ∧ runCommand w d s = .next (s.raise .illegalCommand)) := by
  unfold runCommand
  cases h : decode w d with
  | ok i => exact .inl ⟨i, rfl, rfl⟩
  | illegal r => exact .inr ⟨r, rfl, rfl⟩

/-- What one clock edge does: reset, a command, a delivery, or nothing. -/
theorem clockEdge_cases (p : Pins) (s : State) :
    (p.rst = true ∧ clockEdge p s = .next s.resetBlock) ∨
      (p.rst = false ∧ s.busy = false ∧ p.cmdValid = true ∧ clockEdge p s = runCommand p.cmdWord p.cmdData s) ∨
      (∃ r, p.rst = false ∧ s.rsp = some r ∧ p.rspReady = true ∧ clockEdge p s = .next (s.deliver r)) ∨
      (p.rst = false ∧ clockEdge p s = .next s) := by
  unfold clockEdge State.cmdReady State.rspValid
  cases h1 : p.rst <;> cases h2 : s.busy <;> cases h3 : p.cmdValid <;> cases h4 : s.rsp <;> cases h5 : p.rspReady <;>
    simp

/-- What one step does: nothing where the host drives nothing, else the coming edge. -/
theorem step_cases (s : State) :
    (s.pins = [] ∧ step s = .next s) ∨ ∃ p rest, s.pins = p :: rest ∧ step s = clockEdge p { s with pins := rest } := by
  unfold step nextEdge
  cases h : s.pins with
  | nil => exact .inl ⟨rfl, rfl⟩
  | cons p rest => exact .inr ⟨p, rest, rfl, rfl⟩

/-! ## The pins to come -/

/-- The outcome with other pins to come. -/
def withPins (q : List Pins) (r : Result) : Result :=
  match r with
  | .next t => .next { t with pins := q }
  | .fault f => .fault f
  | .refused f => .refused f

/-- The end of a scaled-decimal command does not read the pins to come. -/
theorem finishSd_pins {n : Nat} (s : State) (q : List Pins) (d : Reg) (v : Option (ScaledDec n)) :
    ({ s with pins := q } : State).finishSd d v = { s.finishSd d v with pins := q } := by cases v <;> rfl

/-- The zero test does not read the pins to come. -/
theorem zeroTest_pins (s : State) (q : List Pins) (a : F64) :
    ({ s with pins := q } : State).zeroTest a = ((s.zeroTest a).1, { (s.zeroTest a).2 with pins := q }) := by
  have e : ({ s with pins := q } : State).fp = s.fp := rfl
  cases h : sign s.fp a <;> simp [State.zeroTest, e, h, State.drawn]

/-- A division does not read the pins to come. -/
theorem sdDiv_pins (n : Nat) (rd rs1 rs2 : Reg) (s : State) (q : List Pins) :
    sdDiv n rd rs1 rs2 { s with pins := q } = withPins q (sdDiv n rd rs1 rs2 s) := by
  have e : ({ s with pins := q } : State).mr rs2 = s.mr rs2 := rfl
  simp only [sdDiv_eq, e, zeroTest_pins, finishSd_pins]
  split <;> rfl

/-- A conversion does not read the pins to come. -/
theorem sdConvert_pins (n limit : Nat) (z : BitVec 64) (f : F64 → BitVec 64) (rs1 : Reg) (s : State) (q : List Pins) :
    sdConvert n limit z f rs1 { s with pins := q } = withPins q (sdConvert n limit z f rs1 s) := by
  have e : ({ s with pins := q } : State).mr rs1 = s.mr rs1 := rfl
  have e' : ({ s with pins := q } : State).expW n rs1 = s.expW n rs1 := rfl
  simp only [sdConvert_eq, e, e', zeroTest_pins]
  split
  · rfl
  · split <;> rfl

/-- A comparison does not read the pins to come. -/
theorem sdCmp_pins (n : Nat) (rs1 rs2 : Reg) (s : State) (q : List Pins) :
    sdCmp n rs1 rs2 { s with pins := q } = withPins q (sdCmp n rs1 rs2 s) := by
  have e : ({ s with pins := q } : State).fp = s.fp := rfl
  have e1 : ({ s with pins := q } : State).sd n = s.sd n := rfl
  cases h : compareSd s.fp (s.sd n rs1) (s.sd n rs2) <;> simp [sdCmp, e, e1, h, withPins, State.respond, State.drawn]

/-- No instruction reads or changes the pins to come: with other pins it does the same. -/
theorem exec_pins (i : Instr) (s : State) (q : List Pins) : exec i { s with pins := q } = withPins q (exec i s) := by
  have e : ({ s with pins := q } : State).xr = s.xr := rfl
  cases i
  case udiv | umod => simp only [exec, execUdiv, execUmod, e]; split <;> rfl
  case sd64Div | sd256Div => exact sdDiv_pins ..
  case sd64Cmp | sd256Cmp => exact sdCmp_pins ..
  case sd64Cvtd rs1 => exact sdConvert_pins 64 cvtdLimit s.fp.zero (fun v => v) rs1 s q
  case sd256Cvtd rs1 => exact sdConvert_pins 256 cvtdLimit s.fp.zero (fun v => v) rs1 s q
  case sd64Cvts rs1 => exact sdConvert_pins 64 cvtsLimit 0 (fun v => (s.fp.toF32 v).setWidth 64) rs1 s q
  case sd256Cvts rs1 => exact sdConvert_pins 256 cvtsLimit 0 (fun v => (s.fp.toF32 v).setWidth 64) rs1 s q
  case sd64Norm | sd64Add | sd64Sub | sd64Mul | sd256Norm | sd256Add | sd256Sub | sd256Mul =>
    exact congrArg Host.Outcome.next (finishSd_pins s q ..)
  all_goals rfl

/-- Nor does an accepted command, legal or not. -/
theorem runCommand_pins (w : CmdWord) (d : CmdData) (s : State) (q : List Pins) :
    runCommand w d { s with pins := q } = withPins q (runCommand w d s) := by
  unfold runCommand
  cases decode w d with
  | ok i => exact exec_pins i s q
  | illegal r => rfl

/-- One step of a run. -/
theorem run_next (M : Host.Core) (k : Nat) (s s' : M.State) (h : M.step s = .next s') : M.run (k + 1) s = M.run k s' := by
  simp [Host.Core.run, h]

end Sys2Proof.Machine
end

