-- ==== Sys2Proof/Laws/PerInstr.lean ====
section
/-! SUPPORT. What is said of every instruction as syntax, one lemma a constructor: a well-formed instruction, encoded, decodes
to itself (30_encoding.md R72, R76). -/

namespace Sys2Proof.Laws

/-- The decoder gives back the instruction that the encoder was given. -/
def RoundTrip.Statement (i : Instr) : Prop := i.wf = true → decode (encode i).1 (encode i).2 = .ok i

theorem RoundTrip.nop : RoundTrip.Statement (.nop) := fun _ => decode_n _ rfl

theorem RoundTrip.ldi (rd : Reg) (imm64 : CmdData) : RoundTrip.Statement (.ldi rd imm64) := fun _ => decode_d _ rd rfl

theorem RoundTrip.ldl (rd : Reg) (k : LimbIx) (imm64 : CmdData) : RoundTrip.Statement (.ldl rd k imm64) := fun _ => decode_dl _ rd k rfl

theorem RoundTrip.ldm (rd : Reg) (imm64 : CmdData) : RoundTrip.Statement (.ldm rd imm64) := fun _ => decode_d _ rd rfl

theorem RoundTrip.rdl (rs1 : Reg) (k : LimbIx) : RoundTrip.Statement (.rdl rs1 k) := fun _ => decode_sl _ rs1 k rfl

theorem RoundTrip.rdm (rs1 : Reg) : RoundTrip.Statement (.rdm rs1) := fun _ => decode_s _ rs1 rfl

theorem RoundTrip.rdst : RoundTrip.Statement (.rdst) := fun _ => decode_n _ rfl

theorem RoundTrip.clrerr : RoundTrip.Statement (.clrerr) := fun _ => decode_n _ rfl

theorem RoundTrip.mov (rd rs1 : Reg) : RoundTrip.Statement (.mov rd rs1) := fun _ => decode_r2 _ rd rs1 rfl

theorem RoundTrip.uadd (rd rs1 rs2 : Reg) : RoundTrip.Statement (.uadd rd rs1 rs2) := fun _ => decode_r3 _ rd rs1 rs2 rfl

theorem RoundTrip.usub (rd rs1 rs2 : Reg) : RoundTrip.Statement (.usub rd rs1 rs2) := fun _ => decode_r3 _ rd rs1 rs2 rfl

theorem RoundTrip.uneg (rd rs1 : Reg) : RoundTrip.Statement (.uneg rd rs1) := fun _ => decode_r2 _ rd rs1 rfl

theorem RoundTrip.uinc (rd rs1 : Reg) : RoundTrip.Statement (.uinc rd rs1) := fun _ => decode_r2 _ rd rs1 rfl

theorem RoundTrip.udec (rd rs1 : Reg) : RoundTrip.Statement (.udec rd rs1) := fun _ => decode_r2 _ rd rs1 rfl

theorem RoundTrip.umul (rd rs1 rs2 : Reg) : RoundTrip.Statement (.umul rd rs1 rs2) := fun _ => decode_r3 _ rd rs1 rs2 rfl

theorem RoundTrip.udiv (rd rs1 rs2 : Reg) : RoundTrip.Statement (.udiv rd rs1 rs2) := fun _ => decode_r3 _ rd rs1 rs2 rfl

theorem RoundTrip.umod (rd rs1 rs2 : Reg) : RoundTrip.Statement (.umod rd rs1 rs2) := fun _ => decode_r3 _ rd rs1 rs2 rfl

theorem RoundTrip.uand (rd rs1 rs2 : Reg) : RoundTrip.Statement (.uand rd rs1 rs2) := fun _ => decode_r3 _ rd rs1 rs2 rfl

theorem RoundTrip.uor (rd rs1 rs2 : Reg) : RoundTrip.Statement (.uor rd rs1 rs2) := fun _ => decode_r3 _ rd rs1 rs2 rfl

theorem RoundTrip.unot (rd rs1 : Reg) : RoundTrip.Statement (.unot rd rs1) := fun _ => decode_r2 _ rd rs1 rfl

theorem RoundTrip.ushl (rd rs1 rs2 : Reg) : RoundTrip.Statement (.ushl rd rs1 rs2) := fun _ => decode_r3 _ rd rs1 rs2 rfl

theorem RoundTrip.ushr (rd rs1 rs2 : Reg) : RoundTrip.Statement (.ushr rd rs1 rs2) := fun _ => decode_r3 _ rd rs1 rs2 rfl

theorem RoundTrip.ushli (rd rs1 : Reg) (count : Nat) : RoundTrip.Statement (.ushli rd rs1 count) :=
  fun h => decode_i _ rd rs1 count (by simpa [Instr.wf, shiftCountFits] using h) rfl

theorem RoundTrip.ushri (rd rs1 : Reg) (count : Nat) : RoundTrip.Statement (.ushri rd rs1 count) :=
  fun h => decode_i _ rd rs1 count (by simpa [Instr.wf, shiftCountFits] using h) rfl

theorem RoundTrip.ucmp (rs1 rs2 : Reg) : RoundTrip.Statement (.ucmp rs1 rs2) := fun _ => decode_c _ rs1 rs2 rfl

theorem RoundTrip.sd64Norm (rd rs1 : Reg) : RoundTrip.Statement (.sd64Norm rd rs1) := fun _ => decode_r2 _ rd rs1 rfl

theorem RoundTrip.sd64Add (rd rs1 rs2 : Reg) : RoundTrip.Statement (.sd64Add rd rs1 rs2) := fun _ => decode_r3 _ rd rs1 rs2 rfl

theorem RoundTrip.sd64Sub (rd rs1 rs2 : Reg) : RoundTrip.Statement (.sd64Sub rd rs1 rs2) := fun _ => decode_r3 _ rd rs1 rs2 rfl

theorem RoundTrip.sd64Neg (rd rs1 : Reg) : RoundTrip.Statement (.sd64Neg rd rs1) := fun _ => decode_r2 _ rd rs1 rfl

theorem RoundTrip.sd64Mul (rd rs1 rs2 : Reg) : RoundTrip.Statement (.sd64Mul rd rs1 rs2) := fun _ => decode_r3 _ rd rs1 rs2 rfl

theorem RoundTrip.sd64Div (rd rs1 rs2 : Reg) : RoundTrip.Statement (.sd64Div rd rs1 rs2) := fun _ => decode_r3 _ rd rs1 rs2 rfl

theorem RoundTrip.sd64Cmp (rs1 rs2 : Reg) : RoundTrip.Statement (.sd64Cmp rs1 rs2) := fun _ => decode_c _ rs1 rs2 rfl

theorem RoundTrip.sd64Real (rs1 : Reg) : RoundTrip.Statement (.sd64Real rs1) := fun _ => decode_s _ rs1 rfl

theorem RoundTrip.sd64Cvtd (rs1 : Reg) : RoundTrip.Statement (.sd64Cvtd rs1) := fun _ => decode_s _ rs1 rfl

theorem RoundTrip.sd64Cvts (rs1 : Reg) : RoundTrip.Statement (.sd64Cvts rs1) := fun _ => decode_s _ rs1 rfl

theorem RoundTrip.sd256Norm (rd rs1 : Reg) : RoundTrip.Statement (.sd256Norm rd rs1) := fun _ => decode_r2 _ rd rs1 rfl

theorem RoundTrip.sd256Add (rd rs1 rs2 : Reg) : RoundTrip.Statement (.sd256Add rd rs1 rs2) := fun _ => decode_r3 _ rd rs1 rs2 rfl

theorem RoundTrip.sd256Sub (rd rs1 rs2 : Reg) : RoundTrip.Statement (.sd256Sub rd rs1 rs2) := fun _ => decode_r3 _ rd rs1 rs2 rfl

theorem RoundTrip.sd256Neg (rd rs1 : Reg) : RoundTrip.Statement (.sd256Neg rd rs1) := fun _ => decode_r2 _ rd rs1 rfl

theorem RoundTrip.sd256Mul (rd rs1 rs2 : Reg) : RoundTrip.Statement (.sd256Mul rd rs1 rs2) := fun _ => decode_r3 _ rd rs1 rs2 rfl

theorem RoundTrip.sd256Div (rd rs1 rs2 : Reg) : RoundTrip.Statement (.sd256Div rd rs1 rs2) := fun _ => decode_r3 _ rd rs1 rs2 rfl

theorem RoundTrip.sd256Cmp (rs1 rs2 : Reg) : RoundTrip.Statement (.sd256Cmp rs1 rs2) := fun _ => decode_c _ rs1 rs2 rfl

theorem RoundTrip.sd256Real (rs1 : Reg) : RoundTrip.Statement (.sd256Real rs1) := fun _ => decode_s _ rs1 rfl

theorem RoundTrip.sd256Cvtd (rs1 : Reg) : RoundTrip.Statement (.sd256Cvtd rs1) := fun _ => decode_s _ rs1 rfl

theorem RoundTrip.sd256Cvts (rs1 : Reg) : RoundTrip.Statement (.sd256Cvts rs1) := fun _ => decode_s _ rs1 rfl

end Sys2Proof.Laws
end

