-- ==== Sys2Proof/Tests/Slice0.lean ====
section
/-! SUPPORT. Tests: words written out from the spec's encodings, one or two small steps an instruction with the results of
95_test_vectors.md (the vector's name is in each comment), and for each statement with hypotheses a state that meets them. -/

namespace Sys2Proof.Tests

open Sys2Proof Sys2Proof.Machine

-- one test at a time: tests that the kernel evaluates would each hold a thread while they wait for one another
set_option Elab.async false

/-! ## WellFormed -/

theorem test_wf_refuses_shli_4096 : (Instr.ushli 2 1 4096).wf = false := by decide

theorem test_wf_refuses_shri_4096 : (Instr.ushri 2 1 4096).wf = false := by decide

theorem test_wf_accepts_shli_4095 : (Instr.ushli 2 1 4095).wf = true := by decide

/-! ## Decoding: one word a constructor, from the examples of the rules and of 95_test_vectors.md -/

theorem test_decode_nop : decode 0x00000000 0x1234 = .ok (.nop) := by decide

theorem test_decode_ldi : decode 0x01200000 0x2A = .ok (.ldi 1 0x2A) := by decide

theorem test_decode_ldl : decode 0x02400001 1 = .ok (.ldl 2 1 1) := by decide

theorem test_decode_ldm : decode 0x03200000 0x4014000000000000 = .ok (.ldm 1 0x4014000000000000) := by decide

theorem test_decode_rdl : decode 0x04080001 0 = .ok (.rdl 2 1) := by decide

theorem test_decode_rdm : decode 0x05040000 0 = .ok (.rdm 1) := by decide

theorem test_decode_rdst : decode 0x06000000 0 = .ok (.rdst) := by decide

theorem test_decode_clrerr : decode 0x07000000 0 = .ok (.clrerr) := by decide

theorem test_decode_mov : decode 0x08840000 0 = .ok (.mov 4 1) := by decide

theorem test_decode_uadd : decode 0x10650000 0 = .ok (.uadd 3 1 2) := by decide

theorem test_decode_usub : decode 0x118D0000 0 = .ok (.usub 4 3 2) := by decide

theorem test_decode_uneg : decode 0x12440000 0 = .ok (.uneg 2 1) := by decide

theorem test_decode_uinc : decode 0x13240000 0 = .ok (.uinc 1 1) := by decide

theorem test_decode_udec : decode 0x14480000 0 = .ok (.udec 2 2) := by decide

theorem test_decode_umul : decode 0x15A60000 0 = .ok (.umul 5 1 4) := by decide

theorem test_decode_udiv : decode 0x16B60000 0 = .ok (.udiv 5 5 4) := by decide

theorem test_decode_umod : decode 0x17840000 0 = .ok (.umod 4 1 0) := by decide

theorem test_decode_uand : decode 0x18650000 0 = .ok (.uand 3 1 2) := by decide

theorem test_decode_uor : decode 0x19650000 0 = .ok (.uor 3 1 2) := by decide

theorem test_decode_unot : decode 0x1A440000 0 = .ok (.unot 2 1) := by decide

theorem test_decode_ushl : decode 0x1B078000 0 = .ok (.ushl 0 1 7) := by decide

theorem test_decode_ushr : decode 0x1C650000 0 = .ok (.ushr 3 1 2) := by decide

theorem test_decode_ushli : decode 0x1DC400C8 0 = .ok (.ushli 6 1 200) := by decide

theorem test_decode_ushri : decode 0x1ED800C8 0 = .ok (.ushri 6 6 200) := by decide

theorem test_decode_ucmp : decode 0x1F108000 0 = .ok (.ucmp 4 1) := by decide

theorem test_decode_sd64Norm : decode 0x20240000 0 = .ok (.sd64Norm 1 1) := by decide

theorem test_decode_sd64Add : decode 0x21C50000 0 = .ok (.sd64Add 6 1 2) := by decide

theorem test_decode_sd64Sub : decode 0x22650000 0 = .ok (.sd64Sub 3 1 2) := by decide

theorem test_decode_sd64Neg : decode 0x23440000 0 = .ok (.sd64Neg 2 1) := by decide

theorem test_decode_sd64Mul : decode 0x24B20000 0 = .ok (.sd64Mul 5 4 4) := by decide

theorem test_decode_sd64Div : decode 0x25650000 0 = .ok (.sd64Div 3 1 2) := by decide

theorem test_decode_sd64Cmp : decode 0x260C8000 0 = .ok (.sd64Cmp 3 1) := by decide

theorem test_decode_sd64Real : decode 0x27140000 0 = .ok (.sd64Real 5) := by decide

theorem test_decode_sd64Cvtd : decode 0x280C0000 0 = .ok (.sd64Cvtd 3) := by decide

theorem test_decode_sd64Cvts : decode 0x29140000 0 = .ok (.sd64Cvts 5) := by decide

theorem test_decode_sd256Norm : decode 0x30240000 0 = .ok (.sd256Norm 1 1) := by decide

theorem test_decode_sd256Add : decode 0x31C50000 0 = .ok (.sd256Add 6 1 2) := by decide

theorem test_decode_sd256Sub : decode 0x32650000 0 = .ok (.sd256Sub 3 1 2) := by decide

theorem test_decode_sd256Neg : decode 0x33440000 0 = .ok (.sd256Neg 2 1) := by decide

theorem test_decode_sd256Mul : decode 0x34B20000 0 = .ok (.sd256Mul 5 4 4) := by decide

theorem test_decode_sd256Div : decode 0x35650000 0 = .ok (.sd256Div 3 1 2) := by decide

theorem test_decode_sd256Cmp : decode 0x360C8000 0 = .ok (.sd256Cmp 3 1) := by decide

theorem test_decode_sd256Real : decode 0x37140000 0 = .ok (.sd256Real 5) := by decide

theorem test_decode_sd256Cvtd : decode 0x380C0000 0 = .ok (.sd256Cvtd 3) := by decide

theorem test_decode_sd256Cvts : decode 0x39140000 0 = .ok (.sd256Cvts 5) := by decide

/-- V-I17: every register bit set. -/
theorem test_decode_all_register_bits : decode 0x1F1F8000 0 = .ok (.ucmp 7 7) := by decide

/-- The encoding of R76's example. -/
theorem test_encode_uadd : (encode (.uadd 3 1 2)).1 = 0x10650000 := by decide

/-- V-I3, V-I4, V-I8, V-I9, V-I10, V-I11, V-I12: illegal words, and why. -/
theorem test_illegal_words :
    decode 0x3A000000 0 = .illegal (.unassignedOpcode 0x3A) ∧ decode 0xFF000000 0 = .illegal (.unassignedOpcode 0xFF) ∧
      decode 0x10651000 0 = .illegal (.unusedBitsSet 0x10) ∧ decode 0x10650001 0 = .illegal (.unusedBitsSet 0x10) ∧
      decode 0x12448000 0 = .illegal (.unusedBitsSet 0x12) ∧ decode 0x1F250000 0 = .illegal (.unusedBitsSet 0x1F) ∧
      decode 0x02400004 0 = .illegal (.unusedBitsSet 0x02) := by decide

/-- The host's two questions, on the table's numbering of bits. -/
theorem test_table_word : decodeTableWord 32 0x10650000 = some (.uadd 3 1 2) := by decide

/-! ## One step an instruction -/

/-- A state with the pair (m, x) in register `i`. -/
def put (i : Reg) (m : F64) (x : U256) (s : State) : State := (s.setX i x).setM i m

/-- r1 and r2 loaded, everything else as after reset. -/
def two (m1 : F64) (x1 : U256) (m2 : F64) (x2 : U256) : State := put 1 m1 x1 (put 2 m2 x2 State.reset)

/-- The state after an instruction. -/
def after (i : Instr) (s : State) : State :=
  match exec i s with
  | .next t => t
  | .fault _ => s
  | .refused _ => s

/-- The response an instruction gives. -/
def answer (i : Instr) (s : State) : Option Response := (after i s).rsp

/-- V-T1. -/
theorem test_nop : after .nop State.reset = State.reset.respondOk := by decide

/-- V-T2: the mantissa is kept. -/
theorem test_ldi : (after (.ldi 1 0x2A) (two 0x3FE0000000000000 (ofLimbs 0xFFFFFFFFFFFFFFFF 0xFFFFFFFFFFFFFFFF 0xFFFFFFFFFFFFFFFF 0xFFFFFFFFFFFFFFFF) 0 0)).xr 1 = 0x2A ∧
    (after (.ldi 1 0x2A) (two 0x3FE0000000000000 (ofLimbs 0xFFFFFFFFFFFFFFFF 0xFFFFFFFFFFFFFFFF 0xFFFFFFFFFFFFFFFF 0xFFFFFFFFFFFFFFFF) 0 0)).mr 1 = 0x3FE0000000000000 := by decide

/-- V-T5: only limb B changes. -/
theorem test_ldl : (after (.ldl 2 2 0xFFFFFFFFFFFFFFFF) (two 0 0 0 (ofLimbs 0x1111 0x2222 0x3333 0x4444))).xr 2 =
    (ofLimbs 0x1111 0xFFFFFFFFFFFFFFFF 0x3333 0x4444) := by decide

/-- V-T6: any pattern is stored. -/
theorem test_ldm : (after (.ldm 1 0x7FF0000000000000) (two 0 77 0 0)).mr 1 = 0x7FF0000000000000 ∧
    (after (.ldm 1 0x7FF0000000000000) (two 0 77 0 0)).xr 1 = 77 := by decide

/-- V-T4. -/
theorem test_rdl : answer (.rdl 2 3) (two 0 0 0 (ofLimbs 0x1111 0x2222 0x3333 0x4444)) = some ⟨0, 0x1111⟩ := by decide

/-- V-T6. -/
theorem test_rdm : answer (.rdm 1) (two 0x7FF0000000000000 77 0 0) = some ⟨0, 0x7FF0000000000000⟩ := by decide

/-- V-T8: RDST does not clear. -/
theorem test_rdst : answer .rdst { State.reset with err := 1 } = some ⟨0, 1⟩ ∧ (after .rdst { State.reset with err := 1 }).err = 1 := by decide

/-- V-T8. -/
theorem test_clrerr : (after .clrerr { State.reset with err := 1 }).err = 0 := by decide

/-- V-T7. -/
theorem test_mov : (after (.mov 4 1) (two 0xBFD0000000000000 (ofLimbs 7 0 0 5) 0 0)).sd 256 4 = ⟨0xBFD0000000000000, (ofLimbs 7 0 0 5)⟩ := by decide

/-- V-U3b: carries at two limbs and out of the top. -/
theorem test_uadd : (after (.uadd 3 1 2) (two 0 (ofLimbs 0x8000000000000000 0 0xFFFFFFFFFFFFFFFF 3) 0 (ofLimbs 0x8000000000000000 0 1 4))).xr 3 = (ofLimbs 0 1 0 7) := by decide

/-- V-U22: rd = rs1 = rs2. -/
theorem test_uadd_doubles : (after (.uadd 1 1 1) (two 0 (ofLimbs 0x8000000000000000 0 0 7) 0 0)).xr 1 = 0xE := by decide

/-- V-U6: a borrow through three limbs. -/
theorem test_usub : (after (.usub 3 1 2) (two 0 (ofLimbs 1 0 0 0) 0 (ofLimbs 0 0 0 1))).xr 3 = (ofLimbs 0 0xFFFFFFFFFFFFFFFF 0xFFFFFFFFFFFFFFFF 0xFFFFFFFFFFFFFFFF) := by decide

/-- V-U4. -/
theorem test_usub_wraps : (after (.usub 3 1 2) (two 0 (ofLimbs 0 0 0 0) 0 (ofLimbs 0 0 0 1))).xr 3 = (ofLimbs 0xFFFFFFFFFFFFFFFF 0xFFFFFFFFFFFFFFFF 0xFFFFFFFFFFFFFFFF 0xFFFFFFFFFFFFFFFF) := by decide

/-- V-U8b. -/
theorem test_uneg : (after (.uneg 3 1) (two 0 (ofLimbs 1 2 3 4) 0 0)).xr 3 = (ofLimbs 0xFFFFFFFFFFFFFFFE 0xFFFFFFFFFFFFFFFD 0xFFFFFFFFFFFFFFFC 0xFFFFFFFFFFFFFFFC) := by decide

/-- V-U9b. -/
theorem test_uinc : (after (.uinc 3 1) (two 0 (ofLimbs 0 0 0 0xFFFFFFFFFFFFFFFF) 0 0)).xr 3 = (ofLimbs 0 0 1 0) := by decide

/-- V-U10b. -/
theorem test_udec : (after (.udec 3 1) (two 0 (ofLimbs 0 1 0 0) 0 0)).xr 3 = (ofLimbs 0 0 0xFFFFFFFFFFFFFFFF 0xFFFFFFFFFFFFFFFF) := by decide

/-- V-U11. -/
theorem test_uand : (after (.uand 3 1 2) (two 0 (ofLimbs 0xFF 0 0xF0F0 0x1234) 0 (ofLimbs 0xF 1 0xFF00 0xFF))).xr 3 = (ofLimbs 0xF 0 0xF000 0x34) := by decide

/-- V-U12. -/
theorem test_uor : (after (.uor 3 1 2) (two 0 (ofLimbs 0xFF 0 0xF0F0 0x1234) 0 (ofLimbs 0xF 1 0xFF00 0xFF))).xr 3 = (ofLimbs 0xFF 1 0xFFF0 0x12FF) := by decide

/-- V-U14. -/
theorem test_unot : (after (.unot 3 1) (two 0 (ofLimbs 0xFF 0 0xF0F0 0x1234) 0 0)).xr 3 = (ofLimbs 0xFFFFFFFFFFFFFF00 0xFFFFFFFFFFFFFFFF 0xFFFFFFFFFFFF0F0F 0xFFFFFFFFFFFFEDCB) := by decide

/-- V-U17: the higher limb decides. -/
theorem test_ucmp : answer (.ucmp 1 2) (two 0 (ofLimbs 0 0 1 0) 0 (ofLimbs 0 0 0 0xFFFFFFFFFFFFFFFF)) = some ⟨0, 1⟩ := by decide

/-- V-U21. -/
theorem test_ucmp_lt : answer (.ucmp 1 2) (two 0 (ofLimbs 0 1 0 0) 0 (ofLimbs 1 0 0 0)) = some ⟨0, 0xFFFFFFFFFFFFFFFF⟩ := by decide

/-- V-M5: cross-limb partial products. -/
theorem test_umul : (after (.umul 3 1 2) (two 0 (ofLimbs 1 2 3 4) 0 (ofLimbs 0 0 5 6))).xr 3 = (ofLimbs 0x10 0x1B 0x26 0x18) := by decide

/-- V-M14: a divisor wider than 64 bits. -/
theorem test_udiv : (after (.udiv 3 1 2) (two 0 (ofLimbs 0xFFFFFFFFFFFFFFFF 0xFFFFFFFFFFFFFFFF 0xFFFFFFFFFFFFFFFF 0xFFFFFFFFFFFFFFFF) 0 (ofLimbs 1 0 0 1))).xr 3 = (ofLimbs 0 0 0 0xFFFFFFFFFFFFFFFF) := by decide

/-- V-M19: r3 keeps its value. -/
theorem test_udiv_by_zero : answer (.udiv 3 1 2) (put 3 0 0xDEAD (two 0 9 0 0)) = some ⟨1, 0⟩ ∧
    (after (.udiv 3 1 2) (put 3 0 0xDEAD (two 0 9 0 0))).xr 3 = 0xDEAD ∧
    (after (.udiv 3 1 2) (put 3 0 0xDEAD (two 0 9 0 0))).err = 1 := by decide

/-- V-M15: the matching remainder. -/
theorem test_umod : (after (.umod 3 1 2) (two 0 (ofLimbs 0xFFFFFFFFFFFFFFFF 0xFFFFFFFFFFFFFFFF 0xFFFFFFFFFFFFFFFF 0xFFFFFFFFFFFFFFFF) 0 (ofLimbs 1 0 0 1))).xr 3 = (ofLimbs 0 0xFFFFFFFFFFFFFFFF 0xFFFFFFFFFFFFFFFF 0) := by decide

/-- V-M20: 0 mod 0 faults too. -/
theorem test_umod_by_zero : answer (.umod 3 1 2) (two 0 0 0 0) = some ⟨1, 0⟩ := by decide

/-- V-S12: limbs A, B, C of the count are ignored. -/
theorem test_ushl : (after (.ushl 3 1 2) (two 0 (ofLimbs 0 0 0 3) 0 (ofLimbs 0 0 9 7))).xr 3 = (ofLimbs 0 0 0 0x180) := by decide

/-- V-S14: the count 2^63 is not reduced. -/
theorem test_ushr : (after (.ushr 3 1 2) (two 0 (ofLimbs 0xFFFFFFFFFFFFFFFF 0xFFFFFFFFFFFFFFFF 0xFFFFFFFFFFFFFFFF 0xFFFFFFFFFFFFFFFF) 0 (ofLimbs 0 0 0 0x8000000000000000))).xr 3 = (ofLimbs 0 0 0 0) := by decide

/-- V-S15: logical. -/
theorem test_ushr_255 : (after (.ushr 3 1 2) (two 0 (ofLimbs 0x8000000000000000 0 0 0) 0 (ofLimbs 0 0 0 0xFF))).xr 3 = (ofLimbs 0 0 0 1) := by decide

/-- V-S7. -/
theorem test_ushli : (after (.ushli 3 1 68) (two 0 (ofLimbs 0x123456789ABCDEF 0xFEDCBA9876543210 0xF1E2D3C4B5A6978 0x8796A5B4C3D2E1F0) 0 0)).xr 3 =
    (ofLimbs 0xEDCBA98765432100 0xF1E2D3C4B5A69788 0x796A5B4C3D2E1F00 0) := by decide

/-- V-S8. -/
theorem test_ushri : (after (.ushri 3 1 68) (two 0 (ofLimbs 0x123456789ABCDEF 0xFEDCBA9876543210 0xF1E2D3C4B5A6978 0x8796A5B4C3D2E1F0) 0 0)).xr 3 =
    (ofLimbs 0 0x123456789ABCDE 0xFFEDCBA987654321 0xF1E2D3C4B5A697) := by decide

/-- V-N1. -/
theorem test_sd64Norm : (after (.sd64Norm 3 1) (two 0x405ED9999999999A 0 0 0)).sd 256 3 = ⟨0x3FBF972474538EF3, 3⟩ := by decide +kernel

/-- V-N16: the upper limbs are written 0. -/
theorem test_sd64Norm_zeroes_upper_limbs : (after (.sd64Norm 3 1) (two 0x3FE0000000000000 (ofLimbs 7 8 9 3) 0 0)).sd 256 3 = ⟨0x3FE0000000000000, 3⟩ := by decide +kernel

/-- V-N12: the increment carries into limb C. -/
theorem test_sd256Norm : (after (.sd256Norm 3 1) (two 0x4014000000000000 0xFFFFFFFFFFFFFFFF 0 0)).sd 256 3 = ⟨0x3FE0000000000000, (ofLimbs 0 0 1 0)⟩ := by decide +kernel

/-- V-N17: +infinity. -/
theorem test_sd64Norm_hangs : after (.sd64Norm 3 1) (two 0x7FF0000000000000 4 0 0) = (two 0x7FF0000000000000 4 0 0).hang := by decide +kernel

/-- V-G3: not normalized. -/
theorem test_sd64Neg : (after (.sd64Neg 3 1) (two 0xBFA999999999999A 7 0 0)).sd 256 3 = ⟨0x3FA999999999999A, 7⟩ := by decide +kernel

/-- V-G4: the whole exponent. -/
theorem test_sd256Neg : (after (.sd256Neg 3 1) (two 0x3FE0000000000000 (ofLimbs 0x100 0 0 3) 0 0)).sd 256 3 = ⟨0xBFE0000000000000, (ofLimbs 0x100 0 0 3)⟩ := by decide +kernel

/-- V-A2: delta = 16. -/
theorem test_sd64Add_delta_16 : (after (.sd64Add 3 1 2) (two 0x3FB999999999999A 16 0x3FECCCCCCCCCCCCD 0)).sd 256 3 = ⟨0x3FB99999999999A0, 16⟩ := by decide +kernel

/-- V-A4: delta = 17, the second operand is big. -/
theorem test_sd64Add_delta_17 : (after (.sd64Add 3 1 2) (two 0x3FECCCCCCCCCCCCD 0 0x3FB999999999999A 17)).sd 256 3 = ⟨0x3FB999999999999A, 17⟩ := by decide +kernel

/-- V-A30: delta = 16 across the limb boundary. -/
theorem test_sd256Add_delta_16 : (after (.sd256Add 3 1 2) (two 0x3FB999999999999A (ofLimbs 0 0 1 5) 0x3FECCCCCCCCCCCCD 0xFFFFFFFFFFFFFFF5)).sd 256 3 = ⟨0x3FB99999999999A0, (ofLimbs 0 0 1 5)⟩ := by decide +kernel

/-- V-A31: delta = 17. -/
theorem test_sd256Add_delta_17 : (after (.sd256Add 3 1 2) (two 0x3FB999999999999A (ofLimbs 0 0 1 5) 0x3FECCCCCCCCCCCCD 0xFFFFFFFFFFFFFFF4)).sd 256 3 = ⟨0x3FB999999999999A, (ofLimbs 0 0 1 5)⟩ := by decide +kernel

/-- V-A12. -/
theorem test_sd64Sub : (after (.sd64Sub 3 1 2) (two 0x4014000000000000 10000 0x4008000000000000 10000)).sd 256 3 = ⟨0x3FC999999999999A, 10001⟩ := by decide +kernel

/-- V-A15b: the cutoff gives −b. -/
theorem test_sd64Sub_cutoff : (after (.sd64Sub 3 1 2) (two 0x3FECCCCCCCCCCCCD 0 0x3FB999999999999A 17)).sd 256 3 = ⟨0xBFB999999999999A, 17⟩ := by decide +kernel

/-- V-A14, at W = 256: a small negative result stays outside the band. -/
theorem test_sd256Sub : (after (.sd256Sub 3 1 2) (two 0x3FE0000000000000 7 0x3FE051EB851EB852 7)).sd 256 3 = ⟨0xBF847AE147AE1480, 7⟩ := by decide +kernel

/-- V-A18. -/
theorem test_sd64Mul : (after (.sd64Mul 3 1 2) (two 0x3FB999999999999A 2 0x3FB999999999999A 2)).sd 256 3 = ⟨0x3FB999999999999B, 3⟩ := by decide +kernel

/-- V-A21: the exponent sum wraps. -/
theorem test_sd256Mul : (after (.sd256Mul 3 1 2) (two 0x3FE0000000000000 (ofLimbs 0x8000000000000000 0 0 0) 0x3FE0000000000000 (ofLimbs 0x8000000000000000 0 0 0))).sd 256 3 = ⟨0x3FD0000000000000, 0⟩ := by decide +kernel

/-- V-A22: the exponent difference wraps. -/
theorem test_sd64Div : (after (.sd64Div 3 1 2) (two 0x3FE0000000000000 3 0x3FE0000000000000 10)).sd 256 3 = ⟨0x3FB999999999999A, 0xFFFFFFFFFFFFFFFA⟩ := by decide +kernel

/-- V-A29. -/
theorem test_sd64Div_by_minus_zero : answer (.sd64Div 3 1 2) (two 0 3 0x8000000000000000 0) = some ⟨1, 0⟩ := by decide +kernel

/-- V-A26, at W = 256. -/
theorem test_sd256Div : (after (.sd256Div 3 1 2) (two 0x3FB999999999999A 1 0x3FD3333333333333 1)).sd 256 3 = ⟨0x3FD5555555555556, 0⟩ := by decide +kernel

/-- V-C6: the preserved asymmetry. -/
theorem test_sd64Cmp : answer (.sd64Cmp 1 2) (two 0xBFE0000000000000 4 0xBFECCCCCCCCCCCCD 3) = some ⟨0, 1⟩ := by decide +kernel

/-- V-C14. -/
theorem test_sd64Cmp_low_limb : answer (.sd64Cmp 1 2) (two 0x3FE0000000000000 (ofLimbs 0 0 1 0) 0x3FECCCCCCCCCCCCD 5) = some ⟨0, 0xFFFFFFFFFFFFFFFF⟩ := by decide +kernel

/-- V-C13. -/
theorem test_sd256Cmp : answer (.sd256Cmp 1 2) (two 0x3FE0000000000000 (ofLimbs 0 0 1 0) 0x3FECCCCCCCCCCCCD 5) = some ⟨0, 1⟩ := by decide +kernel

/-- V-R5: the largest exponent with an exact power of ten. -/
theorem test_sd64Real : answer (.sd64Real 1) (two 0x3FE0000000000000 22 0 0) = some ⟨0, 0x4470F0CF064DD592⟩ := by decide +kernel

/-- V-R7. -/
theorem test_sd64Real_saturates : answer (.sd64Real 1) (two 0xBFC999999999999A 309 0 0) = some ⟨0, 0x7FEFFFFFFFFFFFFF⟩ := by decide +kernel

/-- V-R10. -/
theorem test_sd256Real : answer (.sd256Real 1) (two 0x3FE0000000000000 (ofLimbs 0 0 1 3) 0 0) = some ⟨0, 0x7FEFFFFFFFFFFFFF⟩ := by decide +kernel

/-- V-D6. -/
theorem test_sd64Cvtd : answer (.sd64Cvtd 1) (two 0xBFD0000000000000 7 0 0) = some ⟨0, 0xC14312D000000000⟩ := by decide +kernel

/-- V-D2. -/
theorem test_sd64Cvtd_overflow : answer (.sd64Cvtd 1) (two 0x3FE0000000000000 308 0 0) = some ⟨2, 0⟩ ∧ (after (.sd64Cvtd 1) (two 0x3FE0000000000000 308 0 0)).err = 2 := by decide +kernel

/-- V-D4, at W = 256: −0 gives +0. -/
theorem test_sd256Cvtd : answer (.sd256Cvtd 1) (two 0x8000000000000000 5000 0 0) = some ⟨0, 0⟩ := by decide +kernel

/-- V-S32a. -/
theorem test_sd64Cvts : answer (.sd64Cvts 1) (two 0x3FBF972474538EF3 3 0 0) = some ⟨0, 0x42F6CCCD⟩ := by decide +kernel

/-- V-S32g. -/
theorem test_sd256Cvts : answer (.sd256Cvts 1) (two 0x3FE0000000000000 (ofLimbs 0x100 0 0 0) 0 0) = some ⟨2, 0⟩ := by decide +kernel

/-- The limb procedures on V-U3b, V-U6, V-M5, V-M15, V-S7, V-S8. -/
theorem test_limb_procedures :
    add256Limbs (ofLimbs 0x8000000000000000 0 0xFFFFFFFFFFFFFFFF 3) (ofLimbs 0x8000000000000000 0 1 4) = ofLimbs 0 1 0 7 ∧
      sub256Limbs (ofLimbs 1 0 0 0) 1 = ofLimbs 0 0xFFFFFFFFFFFFFFFF 0xFFFFFFFFFFFFFFFF 0xFFFFFFFFFFFFFFFF ∧
      mul256Limbs (ofLimbs 1 2 3 4) (ofLimbs 0 0 5 6) = ofLimbs 0x10 0x1B 0x26 0x18 := by decide +kernel

/-- R78's line for R76's example. -/
theorem test_assembly : assembly (.uadd 3 1 2) = "U.ADD r3, r1, r2" ∧ assembly (.ldl 1 3 7) = "LDL r1, 3, #7" := by
  decide

/-! ## The port -/

/-- A hung block. -/
def hung : State := { State.reset.hang with pins := [commandPins 0 0, resetPins] }

/-- A command offered to a hung block is not accepted; reset ends the hang (R279, R300). -/
theorem test_reset_ends_hang :
    step hung = .next { hung with pins := [resetPins] } ∧
      step { hung with pins := [resetPins] } = .next State.reset := ⟨rfl, rfl⟩

/-- V-T8 as a run: U.DIV by zero, RDST, CLRERR, RDST, each response taken. -/
theorem test_run_v_t8 :
    ∃ t, Host.Core.run core 8
        ({ two 0 9 0 0 with
            pins := hostRun [(0x16650000, 0), (0x06000000, 0), (0x07000000, 0), (0x06000000, 0)] } : State) = .next t ∧
      State.received t = [⟨1, 0⟩, ⟨0, 1⟩, ⟨0, 0⟩, ⟨0, 0⟩] := ⟨_, rfl, by decide⟩

/-! ## Witnesses: for each statement with hypotheses, a state and operands that meet them -/

/-- A result is the next state `t`, as a Bool. -/
def isNext (r : Result) (t : State) : Bool :=
  match r with
  | .next u => u == t
  | .fault _ => false
  | .refused _ => false

theorem isNext_sound {r : Result} {t : State} (h : isNext r t = true) : r = .next t := by
  cases r with
  | next u => rw [eq_of_beq h]
  | fault f => cases h
  | refused r => cases h

theorem witness_DecodeEncodeAgree : (Instr.ushli 2 1 4095).wf = true ∧ (Instr.ldl 7 3 0xFFFFFFFFFFFFFFFF).wf = true := by
  decide

theorem witness_EncodeDecodeAgree :
    decode 0x02400003 9 = .ok (.ldl 2 3 9) ∧ usesCmdData (.ldl 2 3 9) = true := by decide

/-- No row of the table matches `w`. -/
def noRow (w : CmdWord) : Bool :=
  (List.range 256).all fun op =>
    match rowOf (BitVec.ofNat 8 op) with
    | some r => w &&& formatMask r.format != matchWord (BitVec.ofNat 8 op)
    | none => true

theorem noRow_sound (w : CmdWord) (h : noRow w = true) (op : BitVec 8) (r : Row) (hr : rowOf op = some r) :
    w &&& formatMask r.format ≠ matchWord op := by
  have := List.all_eq_true.mp h op.toNat (List.mem_range.mpr op.isLt)
  simpa [hr] using this

theorem witness_IllegalWordRaisesIllegalCommand :
    (∀ op r, rowOf op = some r → (0x10651000 : CmdWord) &&& formatMask r.format ≠ matchWord op) ∧
      (∀ op r, rowOf op = some r → (0xFF000000 : CmdWord) &&& formatMask r.format ≠ matchWord op) :=
  ⟨noRow_sound _ (by decide +kernel), noRow_sound _ (by decide +kernel)⟩

/-- A positive mantissa with an exponent one above the conversion boundary. -/
def tooLarge : State := two 0x3FE0000000000000 308 0 0

theorem witness_DataWordsUsedOnlyWhereSaid :
    (decode 0 1 = .ok .nop ∧ usesCmdData .nop = false) ∧
      (∃ t r, exec .nop State.reset = .next t ∧ t.rsp = some r ∧ answersData .nop = false) ∧
      (∃ t r, exec (.sd64Cvtd 1) tooLarge = .next t ∧ t.rsp = some r ∧ r.status ≠ 0) ∧
      ∃ t r, decode 0x3A000000 5 = .illegal (.unassignedOpcode 0x3A) ∧
        runCommand 0x3A000000 5 State.reset = .next t ∧ t.rsp = some r :=
  ⟨by decide, ⟨_, _, rfl, rfl, rfl⟩, ⟨tooLarge.raise .overflow, ⟨2, 0⟩, isNext_sound (by decide +kernel), rfl, by decide⟩,
    ⟨_, _, by decide, rfl, rfl⟩⟩

/-- An idle block to which U.ADD r3, r1, r2 is offered. -/
def offered : State := { two 0 7 0 8 with pins := [commandPins 0x10650000 0] }

/-- The same block with an illegal word offered. -/
def offeredIllegal : State := { offered with pins := [commandPins 0x10651000 0] }

theorem witness_StepRunsDecodedInstruction :
    (offered.pins = commandPins 0x10650000 0 :: [] ∧ (commandPins 0x10650000 0).rst = false ∧ offered.busy = false ∧
        (commandPins 0x10650000 0).cmdValid = true ∧ decode 0x10650000 0 = .ok (.uadd 3 1 2)) ∧
      (offeredIllegal.pins = commandPins 0x10651000 0 :: [] ∧ offeredIllegal.busy = false ∧
        decode 0x10651000 0 = .illegal (.unusedBitsSet 0x10)) ∧
      decodeTableWord 32 0x1E440002 = some (.ushri 2 1 2) ∧ State.reset.pins = [] := by decide

/-- V-I8 as a step: an illegal word at the port raises IllegalCommand (R77, R275). -/
theorem test_step_illegal :
    step offeredIllegal = .next { offeredIllegal with pins := [], err := 4, busy := true, rsp := some ⟨4, 0⟩ } := rfl

theorem witness_ResetAtAnyEdge :
    ({ hung with pins := [resetPins] } : State).pins = resetPins :: [] ∧ resetPins.rst = true := by decide

/-- A block whose response DivisionByZero the host has not yet taken. -/
def faulted (p : Pins) : State := { State.reset.raise .divisionByZero with pins := [p] }

/-- An edge of each kind: acceptance, delivery, a response not taken, a hang, an idle block without a command. -/
theorem witness_OneCommandInFlight :
    (offered.cmdReady (commandPins 0x10650000 0) = true ∧ (commandPins 0x10650000 0).cmdValid = true) ∧
      ((faulted takePins).pins = takePins :: [] ∧ takePins.rst = false ∧ (faulted takePins).busy = true ∧
        (faulted takePins).rsp = some ⟨1, 0⟩ ∧ takePins.rspReady = true) ∧
      ((faulted ⟨false, true, 0, 0, false⟩).pins = ⟨false, true, 0, 0, false⟩ :: [] ∧
        (faulted ⟨false, true, 0, 0, false⟩).busy = true) ∧
      (hung.pins = commandPins 0 0 :: [resetPins] ∧ (commandPins 0 0).rst = false ∧ hung.busy = true ∧ hung.rsp = none) ∧
      (({ State.reset with pins := [takePins] } : State).pins = takePins :: [] ∧ takePins.cmdValid = false ∧
        State.reset.busy = false ∧ State.reset.rsp = none) := by decide

theorem witness_StepKeepsInvariant : Inv (faulted takePins) ∧ ∃ t, step (faulted takePins) = .next t := by
  refine ⟨⟨.inr (.inl rfl), fun r h => ?_, fun r h => nomatch h⟩, ⟨_, rfl⟩⟩
  obtain rfl : (⟨1, 0⟩ : Response) = r := Option.some.inj h
  exact ⟨rfl, ⟨.inr (.inl rfl), fun _ => rfl⟩, fun _ => by decide⟩

/-- The host issues U.DIV by zero, then NORM of an infinity, then NOP. -/
def threeCommands : State :=
  { two 0x7FF0000000000000 9 0 0 with pins := hostRun [(0x16650000, 0), (0x20640000, 0), (0, 0)] }

theorem witness_OneResponsePerCommand :
    Idle threeCommands ∧ threeCommands.pins = hostRun [(0x16650000, 0), (0x20640000, 0), (0, 0)] := ⟨⟨rfl, rfl⟩, rfl⟩

theorem witness_HangLastsUntilReset : Hanging hung ∧ ∀ p ∈ hung.pins.take 1, p.rst = false :=
  ⟨⟨rfl, rfl⟩, by decide⟩

theorem witness_FaultsChangeOnlyErr :
    (∃ t r, exec (.udiv 3 1 2) (two 0 9 0 0) = .next t ∧ t.rsp = some r ∧ r.status ≠ 0) ∧
      decode 0x10651000 0 = .illegal (.unusedBitsSet 0x10) :=
  ⟨⟨_, ⟨1, 0⟩, rfl, rfl, by decide⟩, by decide⟩

theorem witness_OnlyDividesAndConversionsFault :
    (∃ t, exec .nop State.reset = .next t ∧ t.rsp = some ⟨0, 0⟩) ∧
      (∃ t, exec (.udiv 3 1 2) (two 0 9 0 0) = .next t ∧ t.rsp = some ⟨1, 0⟩) ∧
      ∃ t, exec (.sd64Cvtd 1) tooLarge = .next t ∧ t.rsp = some ⟨2, 0⟩ :=
  ⟨⟨_, rfl, rfl⟩, ⟨_, rfl, rfl⟩, ⟨tooLarge.raise .overflow, isNext_sound (by decide +kernel), rfl⟩⟩

theorem witness_FirstFaultIsSticky :
    Instr.nop ≠ .clrerr ∧ ∃ t, exec .nop { State.reset with err := 2 } = .next t ∧
      ({ State.reset with err := 2 } : State).err ≠ 0 ∧ ∀ r, t.rsp = some r → r.status = 0 :=
  ⟨by decide, _, rfl, by decide, fun r h => by rw [← Option.some.inj h]⟩

theorem witness_ErrBlocksNothing : Instr.uadd 3 1 2 ≠ .rdst ∧ ∃ t, exec (.uadd 3 1 2) (two 0 7 0 8) = .next t :=
  ⟨by decide, _, rfl⟩

theorem witness_Sd64IgnoresUpperLimbs :
    isSd64 (.sd64Neg 3 1) = true ∧
      (∀ j : Reg, limb ((Vector.replicate 8 (ofLimbs 9 8 7 0))[j]) 0 = limb (State.reset.xr j) 0) ∧
      ∃ t, exec (.sd64Neg 3 1) State.reset = .next t := ⟨by decide, by decide, _, rfl⟩

theorem witness_CommandsTouchTheirParts :
    (isU256 (.uadd 3 1 2) = true ∧ ∃ t, exec (.uadd 3 1 2) (two 5 7 6 8) = .next t) ∧
      (hasNoDestination (.rdm 1) = true ∧ ∃ t, exec (.rdm 1) (two 5 7 6 8) = .next t) :=
  ⟨⟨by decide, _, rfl⟩, by decide, _, rfl⟩

theorem witness_OnlyNormalizingCommandsHang :
    ∃ t, exec (.sd64Norm 3 1) (two 0x7FF0000000000000 4 0 0) = .next t ∧ t.rsp = none :=
  ⟨(two 0x7FF0000000000000 4 0 0).hang, isNext_sound (by decide +kernel), rfl⟩

theorem witness_DivModFloor :
    (two 0 9 0 0).xr 2 = 0 ∧ (two 0 9 0 4).xr 2 ≠ 0 ∧
      (∃ t, exec (.udiv 3 1 2) (two 0 9 0 4) = .next t) ∧ ∃ u, exec (.umod 4 1 2) (two 0 9 0 4) = .next u :=
  ⟨by decide, by decide, ⟨_, rfl⟩, ⟨_, rfl⟩⟩

theorem witness_ReferenceDividerIsFloor : (1 : U256) ≠ 0 ∧ max256 ≠ 0 := by decide

theorem witness_MulDivLaws :
    ((0xFFFFFFFF : U256) ≠ 0 ∧ (3 : U256).toNat * (0xFFFFFFFF : U256).toNat < 2 ^ 256) ∧ (255 < 256) ∧
      isU256 (.udiv 3 1 2) = true ∧
      ∃ t r, exec (.udiv 3 1 2) (two 0 9 0 0) = .next t ∧ t.rsp = some r ∧ r.status ≠ 0 :=
  ⟨by decide, by decide, by decide, ⟨_, ⟨1, 0⟩, rfl, rfl, by decide⟩⟩

/-- Both ends of the ranges: counts 255 and 256, the value 0 under 2^(256 − 256), the largest value under 2^(256 − 0). -/
theorem witness_shift_ranges :
    255 < 256 ∧ 256 ≤ 256 ∧ (0 : U256).toNat < 2 ^ (256 - 256) ∧ max256.toNat < 2 ^ (256 - 0) := by decide

/-- The pseudocode of R193 ends where a bounded run of each loop does. -/
theorem normalizesTo_of_loops {n : Nat} {fp : FP} {v w : ScaledDec n} (u : ScaledDec n)
    (h0 : fp.eq v.mant fp.zero = false) (h1 : divideLoop fp 400 v = some u) (h2 : multiplyLoop fp 400 u = some w) :
    NormalizesTo fp v w :=
  .inr ⟨h0, u, divideLoop_runs fp 400 v u h1, multiplyLoop_runs fp 400 u w h2⟩

/-- The pseudocode of R193 never ends on +infinity: step 1 gives +infinity again. -/
theorem not_divideRuns_inf {n : Nat} {v w : ScaledDec n} (h : DivideRuns ieeeFp v w) :
    v.mant ≠ 0x7FF0000000000000 := by
  induction h with
  | stop v h =>
    intro hv
    rw [hv] at h
    exact absurd h (by decide)
  | turn v w h rest ih =>
    intro hv
    apply ih
    show ieeeFp.div v.mant ieeeFp.ten = _
    rw [hv]
    decide +kernel

theorem not_normalizesTo_inf {n : Nat} (e : BitVec n) (w : ScaledDec n) :
    ¬ NormalizesTo ieeeFp ⟨0x7FF0000000000000, e⟩ w := by
  rintro (⟨h, _⟩ | ⟨_, u, h, _⟩)
  · exact absurd (show ieeeFp.eq 0x7FF0000000000000 ieeeFp.zero = true from h) (by decide)
  · exact not_divideRuns_inf h rfl

/-- V-N1's mantissa, in r1; the pseudocode ends. -/
theorem witness_NormWritesNormalizedOrHangs_ends :
    NormalizesTo (two 0x405ED9999999999A 0 0 0).fp
        ⟨(two 0x405ED9999999999A 0 0 0).mr 1, (limb ((two 0x405ED9999999999A 0 0 0).xr 1) 0 : BitVec 64)⟩
        ⟨0x3FBF972474538EF3, 3⟩ ∧
      NormalizesTo (two 0x405ED9999999999A 0 0 0).fp
        ⟨(two 0x405ED9999999999A 0 0 0).mr 1, (two 0x405ED9999999999A 0 0 0).xr 1⟩ ⟨0x3FBF972474538EF3, 3⟩ :=
  ⟨normalizesTo_of_loops ⟨0x3FBF972474538EF3, 3⟩ (by decide) (by decide +kernel) (by decide +kernel),
    normalizesTo_of_loops ⟨0x3FBF972474538EF3, 3⟩ (by decide) (by decide +kernel) (by decide +kernel)⟩

/-- +infinity in r1; the pseudocode does not end. -/
theorem witness_NormWritesNormalizedOrHangs_hangs :
    (∀ w, ¬ NormalizesTo (two 0x7FF0000000000000 4 0 0).fp
        ⟨(two 0x7FF0000000000000 4 0 0).mr 1, (limb ((two 0x7FF0000000000000 4 0 0).xr 1) 0 : BitVec 64)⟩ w) ∧
      ∀ w, ¬ NormalizesTo (two 0x7FF0000000000000 4 0 0).fp
        ⟨(two 0x7FF0000000000000 4 0 0).mr 1, (two 0x7FF0000000000000 4 0 0).xr 1⟩ w :=
  ⟨fun w => not_normalizesTo_inf _ w, fun w => not_normalizesTo_inf _ w⟩

/-- V-N1's mantissa for SD64.FROMF and SD256.FROMF, and +infinity. -/
theorem witness_PseudoCommandsLoad :
    NormalizesTo State.reset.fp (⟨0x405ED9999999999A, 0⟩ : ScaledDec 64) ⟨0x3FBF972474538EF3, 3⟩ ∧
      NormalizesTo State.reset.fp (⟨0x405ED9999999999A, 0⟩ : ScaledDec 256) ⟨0x3FBF972474538EF3, 3⟩ ∧
      (∀ w, ¬ NormalizesTo State.reset.fp (⟨0x7FF0000000000000, 0⟩ : ScaledDec 64) w) ∧
      ∀ w, ¬ NormalizesTo State.reset.fp (⟨0x7FF0000000000000, 0⟩ : ScaledDec 256) w :=
  ⟨normalizesTo_of_loops ⟨0x3FBF972474538EF3, 3⟩ (by decide) (by decide +kernel) (by decide +kernel),
    normalizesTo_of_loops ⟨0x3FBF972474538EF3, 3⟩ (by decide) (by decide +kernel) (by decide +kernel),
    fun w => not_normalizesTo_inf _ w, fun w => not_normalizesTo_inf _ w⟩

theorem witness_NormalizedIsInBandAndFixed :
    f64IsNan (0x405ED9999999999A : F64) = false ∧
      normalize ieeeFp (⟨0x405ED9999999999A, 0⟩ : ScaledDec 64) = some ⟨0x3FBF972474538EF3, 3⟩ := by decide +kernel

theorem witness_HangsExactlyOnInfinity :
    f64IsNan (0x7FF8000000000000 : F64) = true ∧ f64IsInf (0xFFF0000000000000 : F64) = true := by decide

theorem witness_DefaultConstantsAreExact : (1 ≤ 1 ∧ 1 ≤ 16) ∧ (1 ≤ 16 ∧ 16 ≤ 16) ∧ 22 ≤ 22 := by decide

/-- V-A12 with the sum 8: equal exponents. V-A2: exponents 16 apart, the cutoff. V-A4: 17 apart. -/
def equalExps : State := two 0x4014000000000000 10000 0x4008000000000000 10000

def exps16Apart : State := two 0x3FB999999999999A 16 0x3FECCCCCCCCCCCCD 0

def exps17Apart : State := two 0x3FECCCCCCCCCCCCD 0 0x3FB999999999999A 17

theorem witness_AddAlignsByExponent_64 :
    AddsTo equalExps.fp (equalExps.sd 64 1) (equalExps.sd 64 2) ⟨0x3FE999999999999A, 10001⟩ ∧
      AddsTo exps16Apart.fp (exps16Apart.sd 64 1) (exps16Apart.sd 64 2) ⟨0x3FB99999999999A0, 16⟩ ∧
      AddsTo exps17Apart.fp (exps17Apart.sd 64 1) (exps17Apart.sd 64 2) ⟨0x3FB999999999999A, 17⟩ :=
  ⟨.inl ⟨by decide,
      normalizesTo_of_loops ⟨0x3FE999999999999A, 10001⟩ (by decide +kernel) (by decide +kernel) (by decide +kernel)⟩,
    .inr ⟨_, _, .inl ⟨rfl, rfl⟩, by decide, .inl ⟨by decide,
      normalizesTo_of_loops ⟨0x3FB99999999999A0, 16⟩ (by decide +kernel) (by decide +kernel) (by decide +kernel)⟩⟩,
    .inr ⟨_, _, .inr ⟨rfl, rfl⟩, by decide, .inr ⟨by decide, by decide⟩⟩⟩

theorem witness_AddAlignsByExponent_256 :
    AddsTo equalExps.fp (equalExps.sd 256 1) (equalExps.sd 256 2) ⟨0x3FE999999999999A, 10001⟩ ∧
      AddsTo exps16Apart.fp (exps16Apart.sd 256 1) (exps16Apart.sd 256 2) ⟨0x3FB99999999999A0, 16⟩ ∧
      AddsTo exps17Apart.fp (exps17Apart.sd 256 1) (exps17Apart.sd 256 2) ⟨0x3FB999999999999A, 17⟩ :=
  ⟨.inl ⟨by decide,
      normalizesTo_of_loops ⟨0x3FE999999999999A, 10001⟩ (by decide +kernel) (by decide +kernel) (by decide +kernel)⟩,
    .inr ⟨_, _, .inl ⟨rfl, rfl⟩, by decide, .inl ⟨by decide,
      normalizesTo_of_loops ⟨0x3FB99999999999A0, 16⟩ (by decide +kernel) (by decide +kernel) (by decide +kernel)⟩⟩,
    .inr ⟨_, _, .inr ⟨rfl, rfl⟩, by decide, .inr ⟨by decide, by decide⟩⟩⟩

/-- +infinity and 0 of equal exponents. -/
def infAndZero : State := two 0x7FF0000000000000 4 0 4

/-- A sum of two operands with equal exponents that is +infinity never ends. -/
theorem not_addsTo_inf {n : Nat} (a b w : ScaledDec n) (he : a.exp = b.exp)
    (hm : ieeeFp.add a.mant b.mant = 0x7FF0000000000000) : ¬ AddsTo ieeeFp a b w := by
  rintro (⟨_, h⟩ | ⟨big, small, h, hlt, _⟩)
  · rw [hm] at h
    exact not_normalizesTo_inf _ _ h
  · rcases h with ⟨rfl, rfl⟩ | ⟨rfl, rfl⟩ <;> simp [he] at hlt

theorem witness_add_sub_hang :
    (∀ w, ¬ AddsTo infAndZero.fp (infAndZero.sd 64 1) (infAndZero.sd 64 2) w) ∧
      (∀ w, ¬ AddsTo infAndZero.fp (infAndZero.sd 256 1) (infAndZero.sd 256 2) w) ∧
      (∀ w, ¬ AddsTo infAndZero.fp (infAndZero.sd 64 1) ⟨infAndZero.fp.neg (infAndZero.mr 2), infAndZero.expW 64 2⟩ w) ∧
      ∀ w, ¬ AddsTo infAndZero.fp (infAndZero.sd 256 1) ⟨infAndZero.fp.neg (infAndZero.mr 2), infAndZero.expW 256 2⟩ w :=
  ⟨fun w => not_addsTo_inf _ _ w (by decide) (by decide +kernel),
    fun w => not_addsTo_inf _ _ w (by decide) (by decide +kernel),
    fun w => not_addsTo_inf _ _ w (by decide) (by decide +kernel),
    fun w => not_addsTo_inf _ _ w (by decide) (by decide +kernel)⟩

/-- V-A12, and V-A15b: the cutoff gives the negated subtrahend. -/
theorem witness_SubAddsTheNegated_64 :
    AddsTo equalExps.fp (equalExps.sd 64 1) ⟨equalExps.fp.neg (equalExps.mr 2), equalExps.expW 64 2⟩
        ⟨0x3FC999999999999A, 10001⟩ ∧
      AddsTo exps17Apart.fp (exps17Apart.sd 64 1) ⟨exps17Apart.fp.neg (exps17Apart.mr 2), exps17Apart.expW 64 2⟩
        ⟨0xBFB999999999999A, 17⟩ :=
  ⟨.inl ⟨by decide,
      normalizesTo_of_loops ⟨0x3FC999999999999A, 10001⟩ (by decide +kernel) (by decide +kernel) (by decide +kernel)⟩,
    .inr ⟨_, _, .inr ⟨rfl, rfl⟩, by decide, .inr ⟨by decide, by decide⟩⟩⟩

theorem witness_SubAddsTheNegated_256 :
    AddsTo equalExps.fp (equalExps.sd 256 1) ⟨equalExps.fp.neg (equalExps.mr 2), equalExps.expW 256 2⟩
        ⟨0x3FC999999999999A, 10001⟩ ∧
      AddsTo exps17Apart.fp (exps17Apart.sd 256 1) ⟨exps17Apart.fp.neg (exps17Apart.mr 2), exps17Apart.expW 256 2⟩
        ⟨0xBFB999999999999A, 17⟩ :=
  ⟨.inl ⟨by decide,
      normalizesTo_of_loops ⟨0x3FC999999999999A, 10001⟩ (by decide +kernel) (by decide +kernel) (by decide +kernel)⟩,
    .inr ⟨_, _, .inr ⟨rfl, rfl⟩, by decide, .inr ⟨by decide, by decide⟩⟩⟩

/-- V-A18, and the same product times +infinity. -/
def tenths : State := two 0x3FB999999999999A 2 0x3FB999999999999A 2

def infTimes : State := two 0x7FF0000000000000 4 0x3FB999999999999A 2

theorem witness_MulMultipliesAndAdds :
    NormalizesTo tenths.fp
        ⟨tenths.fp.mul (tenths.mr 1) (tenths.mr 2),
          BitVec.ofNat 64 ((tenths.expW 64 1).toNat + (tenths.expW 64 2).toNat)⟩ ⟨0x3FB999999999999B, 3⟩ ∧
      NormalizesTo tenths.fp
        ⟨tenths.fp.mul (tenths.mr 1) (tenths.mr 2), BitVec.ofNat 256 ((tenths.xr 1).toNat + (tenths.xr 2).toNat)⟩
        ⟨0x3FB999999999999B, 3⟩ :=
  ⟨normalizesTo_of_loops ⟨0x3F847AE147AE147C, 4⟩ (by decide +kernel) (by decide +kernel) (by decide +kernel),
    normalizesTo_of_loops ⟨0x3F847AE147AE147C, 4⟩ (by decide +kernel) (by decide +kernel) (by decide +kernel)⟩

theorem infTimes_mul : infTimes.fp.mul (infTimes.mr 1) (infTimes.mr 2) = 0x7FF0000000000000 := by decide +kernel

theorem witness_mul_hangs :
    (∀ w, ¬ NormalizesTo infTimes.fp
        ⟨infTimes.fp.mul (infTimes.mr 1) (infTimes.mr 2),
          BitVec.ofNat 64 ((infTimes.expW 64 1).toNat + (infTimes.expW 64 2).toNat)⟩ w) ∧
      ∀ w, ¬ NormalizesTo infTimes.fp
        ⟨infTimes.fp.mul (infTimes.mr 1) (infTimes.mr 2),
          BitVec.ofNat 256 ((infTimes.xr 1).toNat + (infTimes.xr 2).toNat)⟩ w := by
  rw [infTimes_mul]
  exact ⟨fun w => not_normalizesTo_inf _ w, fun w => not_normalizesTo_inf _ w⟩

/-- V-A26: the divisor 0.3; and V-A29: the divisor −0. -/
def thirds : State := two 0x3FB999999999999A 1 0x3FD3333333333333 1

theorem witness_DivDividesAndSubtracts_ends :
    (thirds.fp.eq (thirds.mr 2) thirds.fp.zero = false ∧ sign thirds.fp (thirds.mr 2) ≠ none) ∧
      NormalizesTo thirds.fp
        ⟨thirds.fp.div (thirds.mr 1) (thirds.mr 2),
          BitVec.ofNat 64 ((thirds.expW 64 1).toNat + 2 ^ 64 - (thirds.expW 64 2).toNat)⟩ ⟨0x3FD5555555555556, 0⟩ ∧
      NormalizesTo thirds.fp
        ⟨thirds.fp.div (thirds.mr 1) (thirds.mr 2),
          BitVec.ofNat 256 ((thirds.xr 1).toNat + 2 ^ 256 - (thirds.xr 2).toNat)⟩ ⟨0x3FD5555555555556, 0⟩ :=
  ⟨by decide,
    normalizesTo_of_loops ⟨0x3FD5555555555556, 0⟩ (by decide +kernel) (by decide +kernel) (by decide +kernel),
    normalizesTo_of_loops ⟨0x3FD5555555555556, 0⟩ (by decide +kernel) (by decide +kernel) (by decide +kernel)⟩

theorem witness_DivDividesAndSubtracts_zero :
    (two 0 3 0x8000000000000000 0).fp.eq ((two 0 3 0x8000000000000000 0).mr 2) (two 0 3 0x8000000000000000 0).fp.zero =
      true := by decide

theorem infTimes_div : infTimes.fp.div (infTimes.mr 1) (infTimes.mr 2) = 0x7FF0000000000000 := by decide +kernel

theorem witness_DivDividesAndSubtracts_hangs :
    (infTimes.fp.eq (infTimes.mr 2) infTimes.fp.zero = false ∧ sign infTimes.fp (infTimes.mr 2) ≠ none) ∧
      (∀ w, ¬ NormalizesTo infTimes.fp
        ⟨infTimes.fp.div (infTimes.mr 1) (infTimes.mr 2),
          BitVec.ofNat 64 ((infTimes.expW 64 1).toNat + 2 ^ 64 - (infTimes.expW 64 2).toNat)⟩ w) ∧
      ∀ w, ¬ NormalizesTo infTimes.fp
        ⟨infTimes.fp.div (infTimes.mr 1) (infTimes.mr 2),
          BitVec.ofNat 256 ((infTimes.xr 1).toNat + 2 ^ 256 - (infTimes.xr 2).toNat)⟩ w := by
  rw [infTimes_div]
  exact ⟨by decide, fun w => not_normalizesTo_inf _ w, fun w => not_normalizesTo_inf _ w⟩

theorem witness_AddMulCommute :
    exps16Apart.fpSel = .ieee754 ∧ FiniteMantissa (exps16Apart.mr 1) ∧ FiniteMantissa (exps16Apart.mr 2) := by
  unfold FiniteMantissa
  decide

/-- V-C6's operands, and two zeros of different sign. -/
theorem witness_CmpOrdersBySignExponentMantissa :
    (sign (two 0xBFE0000000000000 4 0xBFECCCCCCCCCCCCD 3).fp ((two 0xBFE0000000000000 4 0xBFECCCCCCCCCCCCD 3).mr 1) =
        some .negative ∧
      sign (two 0xBFE0000000000000 4 0xBFECCCCCCCCCCCCD 3).fp ((two 0xBFE0000000000000 4 0xBFECCCCCCCCCCCCD 3).mr 2) =
        some .negative) ∧
      (sign (two 0 1 0x8000000000000000 2).fp ((two 0 1 0x8000000000000000 2).mr 1) = some .zero ∧
        sign (two 0 1 0x8000000000000000 2).fp ((two 0 1 0x8000000000000000 2).mr 2) = some .zero) := by decide

/-- Among them a zero of each sign, for the clause on zeros. -/
theorem witness_CmpIsATotalOrder :
    f64IsNan (0x7FF0000000000000 : F64) = false ∧ f64IsNan (0x8000000000000000 : F64) = false ∧
      f64IsNan (0xBFE0000000000000 : F64) = false := by decide

/-- Both sides of the two boundaries, a zero, and each sign. -/
theorem witness_conversions :
    (sign tooLarge.fp (tooLarge.mr 1) = some .positive ∧ 307 < (tooLarge.xr 1).toNat) ∧
      (sign (two 0xBFE0000000000000 307 0 0).fp ((two 0xBFE0000000000000 307 0 0).mr 1) = some .negative ∧
        ¬ 307 < ((two 0xBFE0000000000000 307 0 0).xr 1).toNat) ∧
      (37 < ((two 0x3FE0000000000000 38 0 0).xr 1).toNat ∧ ¬ 37 < ((two 0x3FE0000000000000 37 0 0).xr 1).toNat) ∧
      sign (two 0x8000000000000000 308 0 0).fp ((two 0x8000000000000000 308 0 0).mr 1) = some .zero := by decide

/-- A NaN in r1 and in r2 has no sign. -/
theorem witness_UnspecifiedSignStillCompletes :
    sign (two 0x7FF8000000000000 308 0xFFF8000000000001 0).fp ((two 0x7FF8000000000000 308 0xFFF8000000000001 0).mr 1) =
        none ∧
      sign (two 0x7FF8000000000000 308 0xFFF8000000000001 0).fp ((two 0x7FF8000000000000 308 0xFFF8000000000001 0).mr 2) =
        none := by decide

end Sys2Proof.Tests
end

section
/-! The state after reset, register by register (10_state.md R32): the reset state is what the block's reset makes of it, so
the facts about `resetBlock` give its registers. -/

namespace Sys2Proof.Machine

/-- Reset of the block leaves the reset state as it is. -/
theorem State.resetBlock_reset : State.reset.resetBlock = State.reset := rfl

@[simp] theorem State.reset_xr (i : Reg) : State.reset.xr i = 0 :=
  State.resetBlock_reset ▸ State.resetBlock_xr State.reset i

@[simp] theorem State.reset_mr (i : Reg) : State.reset.mr i = 0 :=
  State.resetBlock_reset ▸ State.resetBlock_mr State.reset i

/-- `FP.ZERO` of the default instantiation is the pattern of +0 (R191). -/
@[simp] theorem ieeeFp_zero : ieeeFp.zero = 0 := rfl

/-- The reset mantissa is `FP.ZERO`: the scaled-decimal view of a register after reset is the canonical 0 (R32). -/
theorem State.reset_mr_eq_fp_zero (i : Reg) : State.reset.mr i = State.reset.fp.zero := by
  rw [State.reset_mr, State.reset_fp, ieeeFp_zero]

/-- Settles O9, register by register; `ERR` and BUSY are fields of the reset state. -/
theorem resetStateIsZero : Obligations.ResetStateIsZero :=
  ⟨fun i => ⟨State.reset_xr i, State.reset_mr i, State.reset_mr_eq_fp_zero i⟩, State.reset_err, State.reset_busy⟩

end Sys2Proof.Machine
end

section
/-! How a legal command can end (00_scope.md R13, 60_exceptions.md R274, R279): every instruction ends in one of the four
shared operations, on a state that differs from the one it began in only as stated. Said once, over all instructions. -/

namespace Sys2Proof.Machine

/-- What the arm of `exec` for `i` can leave of `s`. -/
inductive CommandEnd (i : Instr) (s : State) : Result → Prop where
  /-- `respond OK`, after register writes or the clearing of `ERR` -/
  | done (u : State) (err : i ≠ .clrerr → u.err = s.err) (pins : u.pins = s.pins) (received : u.received = s.received)
      (fpSel : u.fpSel = s.fpSel) : CommandEnd i s (.next u.respondOk)
  /-- a result in the response data, nothing written -/
  | answered (u : State) (d : BitVec 64) (drawn : u = s ∨ u = s.drawn) (answers : answersData i = true) :
      CommandEnd i s (.next (u.respond 0 d))
  /-- the fault procedure: DivisionByZero of a divide, Overflow of a conversion -/
  | raised (u : State) (c : FaultCode) (drawn : u = s ∨ u = s.drawn)
      (origin : (c = .divisionByZero ∧ isDivide i = true) ∨ (c = .overflow ∧ isConversion i = true)) :
      CommandEnd i s (.next (u.raise c))
  /-- a normalization that never ends -/
  | hung (u : State) (drawn : u = s ∨ u = s.drawn) (hangs : mayHang i = true) : CommandEnd i s (.next u.hang)

variable {n : Nat} {i : Instr} {s u : State}

/-! ## The shared operations end a command in one of these ways -/

theorem finishX_end (rd : Reg) (v : U256) : CommandEnd i s (s.finishX rd v) :=
  .done (s.setX rd v) (fun _ => rfl) rfl rfl rfl

theorem putSd_end (drawn : u = s ∨ u = s.drawn) (rd : Reg) (w : ScaledDec n) :
    CommandEnd i s (.next (u.putSd rd w).respondOk) := by
  rcases drawn with rfl | rfl <;> exact .done _ (fun _ => rfl) rfl rfl rfl

theorem finishSd_end (drawn : u = s ∨ u = s.drawn) (hangs : mayHang i = true) (rd : Reg) (v : Option (ScaledDec n)) :
    CommandEnd i s (.next (u.finishSd rd v)) := by
  cases v with
  | some w => exact putSd_end drawn rd w
  | none => exact .hung u drawn hangs

/-- U.DIV and U.MOD: the fault at divisor 0, else a register write. -/
theorem divideX_end (div : isDivide i = true) (rd : Reg) (d v : U256) :
    CommandEnd i s (if d = 0 then .next (s.raise .divisionByZero) else s.finishX rd v) := by
  split
  · exact .raised s _ (.inl rfl) (.inl ⟨rfl, div⟩)
  · exact finishX_end rd v

theorem sdDiv_end (div : isDivide i = true) (hangs : mayHang i = true) (rd rs1 rs2 : Reg) :
    CommandEnd i s (sdDiv n rd rs1 rs2 s) := by
  obtain ⟨u, drawn, h | h⟩ := sdDiv_cases n rd rs1 rs2 s <;> rw [h]
  · exact .raised u _ drawn (.inl ⟨rfl, div⟩)
  · exact finishSd_end drawn hangs rd _

theorem sdCmp_end (answers : answersData i = true) (rs1 rs2 : Reg) : CommandEnd i s (sdCmp n rs1 rs2 s) := by
  obtain ⟨c, _, h⟩ | ⟨_, h⟩ := sdCmp_cases n rs1 rs2 s <;> rw [h]
  · exact .answered s _ (.inl rfl) answers
  · exact .answered s.drawn _ (.inr rfl) answers

theorem sdConvert_end (answers : answersData i = true) (conv : isConversion i = true) (limit : Nat) (z : BitVec 64)
    (f : F64 → BitVec 64) (rs1 : Reg) : CommandEnd i s (sdConvert n limit z f rs1 s) := by
  obtain ⟨u, drawn, h | h | h⟩ := sdConvert_cases n limit z f rs1 s <;> rw [h]
  · exact .answered u _ drawn answers
  · exact .raised u _ drawn (.inr ⟨rfl, conv⟩)
  · exact .answered u _ drawn answers

theorem sdCvtd_end (answers : answersData i = true) (conv : isConversion i = true) (rs1 : Reg) :
    CommandEnd i s (sdCvtd n rs1 s) := sdConvert_end answers conv _ _ _ rs1

theorem sdCvts_end (answers : answersData i = true) (conv : isConversion i = true) (rs1 : Reg) :
    CommandEnd i s (sdCvts n rs1 s) := sdConvert_end answers conv _ _ _ rs1

/-! ## Every instruction -/

/-- Everything that the execution of an instruction can do. -/
theorem exec_commandEnd (i : Instr) (s : State) : CommandEnd i s (exec i s) := by
  cases i
  case nop | ldi | ldl | ldm | mov => exact .done _ (fun _ => rfl) rfl rfl rfl
  case clrerr => exact .done s.clearErr (fun h => absurd rfl h) rfl rfl rfl
  case rdl | rdm | rdst | ucmp | sd64Real | sd256Real => exact .answered s _ (.inl rfl) rfl
  case uadd | usub | uneg | uinc | udec | umul | uand | uor | unot | ushl | ushr | ushli | ushri =>
    exact finishX_end _ _
  case udiv | umod => exact divideX_end rfl _ _ _
  case sd64Norm | sd64Add | sd64Sub | sd64Mul | sd256Norm | sd256Add | sd256Sub | sd256Mul =>
    exact finishSd_end (.inl rfl) rfl _ _
  case sd64Neg | sd256Neg => exact putSd_end (.inl rfl) _ _
  case sd64Div | sd256Div => exact sdDiv_end rfl rfl _ _ _
  case sd64Cmp | sd256Cmp => exact sdCmp_end rfl _ _
  case sd64Cvtd | sd256Cvtd => exact sdCvtd_end rfl rfl _
  case sd64Cvts | sd256Cvts => exact sdCvts_end rfl rfl _

/-- The response of a legal command carries data only for the commands R56 lists, and only with status 0. -/
theorem exec_response_data {i : Instr} {s t : State} {r : Response} (run : exec i s = .next t) (rsp : t.rsp = some r)
    (silent : r.status ≠ 0 ∨ answersData i = false) : r.data = 0 := by
  have ends := exec_commandEnd i s
  rw [run] at ends
  cases ends with
  | done u => cases rsp; rfl
  | answered u d drawn answers => cases rsp; simp [answers] at silent
  | raised u c => cases rsp; rfl
  | hung u => cases rsp

/-! ## An accepted command, legal or not -/

theorem runCommand_of_illegal {w : CmdWord} {d : CmdData} {why : Reject} (h : decode w d = .illegal why) (s : State) :
    runCommand w d s = .next (s.raise .illegalCommand) := by
  simp [runCommand, h]

/-- An instruction sets BUSY and delivers nothing. -/
theorem exec_accepts (i : Instr) (s : State) :
    ∃ t, exec i s = .next t ∧ t.busy = true ∧ t.received = s.received := by
  have ends := exec_commandEnd i s
  generalize exec i s = outcome at ends ⊢
  cases ends with
  | done u _ _ received => exact ⟨_, rfl, rfl, received⟩
  | answered u d drawn | raised u c drawn | hung u drawn => rcases drawn with rfl | rfl <;> exact ⟨_, rfl, rfl, rfl⟩

/-- An accepted command sets BUSY and delivers nothing. -/
theorem runCommand_accepts (w : CmdWord) (d : CmdData) (s : State) :
    ∃ t, runCommand w d s = .next t ∧ t.busy = true ∧ t.received = s.received := by
  rcases runCommand_cases w d s with ⟨i, _, h⟩ | ⟨why, _, h⟩ <;> rw [h]
  · exact exec_accepts i s
  · exact ⟨_, rfl, rfl, rfl⟩

end Sys2Proof.Machine
end

section
/-! The data words (20_memory.md R56): which rows of the table read `cmd_data`. -/

namespace Sys2Proof

open Machine

/-- The rows of LDI, LDL and LDM build a command that uses `cmd_data`; every other row of the table ignores it. -/
theorem rowOf_data_cases {op : BitVec 8} {r : Row} (h : rowOf op = some r) :
    (∀ w d, usesCmdData (r.build w d) = true) ∨ ∀ w d d', r.build w d' = r.build w d := by
  unfold rowOf at h
  split at h <;> cases h
  case h_2 | h_3 | h_4 => exact .inl fun _ _ => rfl
  all_goals exact .inr fun _ _ _ => rfl

/-- A word stands for the same instruction whatever the data word, where the instruction does not use it. -/
theorem decode_ok_of_unused {w : CmdWord} {d : CmdData} {i : Instr} (h : decode w d = .ok i)
    (unused : usesCmdData i = false) (d' : CmdData) : decode w d' = .ok i := by
  rcases decode_cases w d with ⟨_, ill⟩ | ⟨r, row, ⟨matched, ok⟩ | ⟨_, ill⟩⟩
  · cases ill.symm.trans h
  · cases ok.symm.trans h
    rw [decode_of_row d' row matched]
    rcases rowOf_data_cases row with uses | ignores
    · cases unused.symm.trans (uses w d)
    · rw [ignores w d d']
  · cases ill.symm.trans h

/-- A word is illegal, and why it is, whatever the data word. -/
theorem decode_illegal_of_illegal {w : CmdWord} {d : CmdData} {why : Reject} (h : decode w d = .illegal why)
    (d' : CmdData) : decode w d' = .illegal why := by
  rcases decode_cases w d with ⟨row, ill⟩ | ⟨r, row, ⟨_, ok⟩ | ⟨unmatched, ill⟩⟩
  · cases ill.symm.trans h
    simp [decode, row]
  · cases ok.symm.trans h
  · cases ill.symm.trans h
    simp [decode, row, unmatched]

/-- Settles O6: the decoder's two clauses from the rows of the table, the responses' two from how a command can end. -/
theorem dataWordsUsedOnlyWhereSaid : Obligations.DataWordsUsedOnlyWhereSaid := by
  refine ⟨fun w d d' i h unused => decode_ok_of_unused h unused d', fun w d d' why h => decode_illegal_of_illegal h d',
    fun i s t r => exec_response_data, ?_⟩
  intro w d why s t r ill run rsp
  cases (runCommand_of_illegal ill s).symm.trans run
  cases rsp
  rfl

end Sys2Proof
end

section
/-! The handshake at one clock edge (20_memory.md R52, R53): one equation a kind of edge. -/

namespace Sys2Proof.Machine

theorem State.cmdReady_iff (s : State) (p : Pins) : s.cmdReady p = true ↔ s.busy = false ∧ p.rst = false := by
  simp [State.cmdReady]

section
variable {s : State} {p : Pins}

/-- A step with pins to come is the coming edge. -/
theorem step_of_pins {rest : List Pins} (h : s.pins = p :: rest) : step s = clockEdge p { s with pins := rest } := by
  simp [step, nextEdge, h]

theorem clockEdge_of_accept (ready : s.cmdReady p = true) (valid : p.cmdValid = true) :
    clockEdge p s = runCommand p.cmdWord p.cmdData s := by
  have rst := ((s.cmdReady_iff p).mp ready).2
  simp [clockEdge, rst, ready, valid]

theorem clockEdge_of_response {r : Response} (rst : p.rst = false) (busy : s.busy = true) (rsp : s.rsp = some r) :
    clockEdge p s = .next (if p.rspReady then s.deliver r else s) := by
  have valid : s.rspValid p = true := by simp [State.rspValid, rsp, rst]
  have unready : s.cmdReady p = false := by simp [State.cmdReady, busy]
  cases taken : p.rspReady <;> simp [clockEdge, rst, unready, rsp, valid, taken]

/-- Without a response and without an acceptance, an edge leaves everything as it is: a hang, or an idle block. -/
theorem clockEdge_of_quiet (rst : p.rst = false) (rsp : s.rsp = none) (quiet : s.busy = true ∨ p.cmdValid = false) :
    clockEdge p s = .next s := by
  have unaccepted : (s.cmdReady p && p.cmdValid) = false := by
    rcases quiet with busy | invalid
    · simp [State.cmdReady, busy]
    · simp [invalid]
  simp [clockEdge, rst, unaccepted, rsp]

end

/-- Settles O10, one kind of edge after the other. -/
theorem oneCommandInFlight : Obligations.OneCommandInFlight := by
  refine ⟨State.cmdReady_iff, ?accept, ?response, ?hang, ?idle⟩
  case accept =>
    intro s p rest pins ready valid
    obtain ⟨t, run, busy, received⟩ := runCommand_accepts p.cmdWord p.cmdData { s with pins := rest }
    have edge : clockEdge p { s with pins := rest } = _ := clockEdge_of_accept ready valid
    exact ⟨t, (step_of_pins pins).trans (edge.trans run), run, busy, received⟩
  case response =>
    intro s p rest r pins rst busy rsp
    exact (step_of_pins pins).trans (clockEdge_of_response rst busy rsp)
  case hang =>
    intro s p rest pins rst hanging
    exact (step_of_pins pins).trans (clockEdge_of_quiet rst hanging.rsp (.inl hanging.busy))
  case idle =>
    intro s p rest pins rst invalid idle
    exact (step_of_pins pins).trans (clockEdge_of_quiet rst idle.rsp (.inr invalid))

end Sys2Proof.Machine
end

section
/-! The words that select no row (30_encoding.md R77): the unassigned opcodes, and what such a word raises. -/

namespace Sys2Proof

open Machine

/-- A word that matches no row of the table is illegal: it does not match the row of its own opcode either. -/
theorem decode_illegal_of_noRow {w : CmdWord} (d : CmdData)
    (unmatched : ∀ op r, rowOf op = some r → w &&& formatMask r.format ≠ matchWord op) :
    ∃ why, decode w d = .illegal why := by
  rcases decode_cases w d with ⟨_, ill⟩ | ⟨r, row, ⟨matched, _⟩ | ⟨_, ill⟩⟩
  · exact ⟨_, ill⟩
  · exact absurd matched (unmatched _ r row)
  · exact ⟨_, ill⟩

/-- The unassigned opcodes are the three gaps of the table (R77). -/
theorem rowOf_eq_none_iff (op : BitVec 8) :
    rowOf op = none ↔
      (0x09 ≤ op.toNat ∧ op.toNat ≤ 0x0F) ∨ (0x2A ≤ op.toNat ∧ op.toNat ≤ 0x2F) ∨ 0x3A ≤ op.toNat := by
  unfold rowOf
  split
  case h_46 =>
    -- the default row: `op` is none of the 45 assigned opcodes, so its number is none of theirs
    simp only [true_iff, imp_false, BitVec.toNat_eq, BitVec.toNat_ofNat] at *
    omega
  -- an assigned opcode has a row, and its number lies in no gap
  all_goals simp

/-- The all-zero word is the encoding of NOP, whatever the data word. -/
theorem decode_zero (d : CmdData) : decode 0 d = .ok .nop :=
  decode_n (op := 0) d rfl

/-- Settles O4: a word without a row is illegal and so raises code 4; the gaps of the table; the word of NOP. -/
theorem illegalWordRaisesIllegalCommand : Obligations.IllegalWordRaisesIllegalCommand := by
  refine ⟨fun s w d unmatched => ?_, rowOf_eq_none_iff, decode_zero⟩
  obtain ⟨why, ill⟩ := decode_illegal_of_noRow d unmatched
  exact ⟨_, runCommand_of_illegal ill s, raise_raised s .illegalCommand⟩

end Sys2Proof
end

section
/-! The limbs of a 256-bit value (00_scope.md R10): which bits a limb holds, and the limbs after one is replaced. -/

namespace Sys2Proof.Machine

/-- Limb `k` is bits 64k+63 to 64k: the value divided by 2^(64k), modulo 2^64. -/
theorem limb_eq_ofNat_div (v : U256) (k : LimbIx) : limb v k = BitVec.ofNat 64 (v.toNat / 2 ^ (64 * k.val)) := by
  rw [← Nat.shiftRight_eq_div_pow]
  rfl

theorem getLsbD_limb {i : Nat} (hi : i < 64) (v : U256) (k : LimbIx) :
    (limb v k).getLsbD i = v.getLsbD (64 * k.val + i) := by
  simp [limb, limbAt, hi]

/-- A bit within the replaced limb comes from the new word, every other bit from the old value. -/
theorem getLsbD_withLimb {p : Nat} (hp : p < 256) (v : U256) (k : LimbIx) (w : Limb) :
    (withLimb v k w).getLsbD p =
      if 64 * k.val ≤ p ∧ p < 64 * k.val + 64 then w.getLsbD (p - 64 * k.val) else v.getLsbD p := by
  simp only [withLimb, BitVec.getLsbD_or, BitVec.getLsbD_and, BitVec.getLsbD_not, BitVec.getLsbD_shiftLeft,
    BitVec.getLsbD_setWidth, BitVec.getLsbD_allOnes]
  by_cases below : p < 64 * k.val
  · simp [hp, below]
  · have offset : p - 64 * k.val < 256 := by omega
    by_cases above : 64 ≤ p - 64 * k.val
    · have outside : ¬ p < 64 * k.val + 64 := by omega
      simp [hp, below, offset, above, outside]
    · have inside : 64 * k.val ≤ p ∧ p < 64 * k.val + 64 := by omega
      have low : p - 64 * k.val < 64 := by omega
      simp [hp, below, offset, low, inside]

/-- `with_limb` replaces limb `k` and leaves the other three. -/
theorem limb_withLimb (v : U256) (k : LimbIx) (w : Limb) (j : LimbIx) :
    limb (withLimb v k w) j = if j = k then w else limb v j := by
  apply BitVec.eq_of_getLsbD_eq
  intro i hi
  have position : (64 * k.val ≤ 64 * j.val + i ∧ 64 * j.val + i < 64 * k.val + 64) ↔ j = k := by
    rw [Fin.ext_iff]
    omega
  simp only [getLsbD_limb hi, getLsbD_withLimb (show 64 * j.val + i < 256 by omega), position]
  split
  case isTrue same => rw [same, Nat.add_sub_cancel_left]
  case isFalse => rw [getLsbD_limb hi]

/-- A zero-extended word is limb D; the limbs above it are 0. -/
theorem limb_setWidth (d : Limb) (j : LimbIx) : limb (d.setWidth 256) j = if j = 0 then d else 0 := by
  apply BitVec.eq_of_getLsbD_eq
  intro i hi
  rw [getLsbD_limb hi, BitVec.getLsbD_setWidth]
  split
  case isTrue low =>
    subst low
    simp [Nat.lt_trans hi]
  case isFalse high =>
    have upper : 1 ≤ j.val := Fin.pos_iff_ne_zero.mpr high
    have beyond : 64 ≤ 64 * j.val + i := by omega
    simp [BitVec.getLsbD_of_ge d _ beyond]

end Sys2Proof.Machine
end

section
/-! The transfer and system commands (40_transfer_system.md R100 to R108). LDI and LDL end as a U256 command with a
destination does, the reads and NOP as a bare response; LDM, MOV and CLRERR have ends of their own, said here. -/

namespace Sys2Proof.Machine

/-- A write of a mantissa, with its response, writes `m[rd]` and nothing else. -/
theorem setM_wroteM (s : State) (rd : Reg) (v : F64) : WroteM s (s.setM rd v).respondOk rd v where
  xr _ := rfl
  mr := s.setM_mr rd v
  err := rfl
  responds := ⟨rfl, rfl⟩
  host := ⟨rfl, rfl, rfl, rfl⟩

/-- A write of both parts of a register, with its response, writes nothing else. -/
theorem setX_setM_wroteBoth (s : State) (rd : Reg) (x : U256) (m : F64) :
    WroteBoth s ((s.setX rd x).setM rd m).respondOk rd x m where
  xr := s.setX_xr rd x
  mr := (s.setX rd x).setM_mr rd m
  err := rfl
  responds := ⟨rfl, rfl⟩
  host := ⟨rfl, rfl, rfl, rfl⟩

/-- Settles O23: LDI writes the zero-extended data word, whose limbs `limb_setWidth` gives; LDM writes the mantissa. -/
theorem ldiLdmLoadTheirPart : Obligations.LdiLdmLoadTheirPart := by
  refine ⟨fun s rd d => ⟨decode_d d rd rfl, ?ldi⟩, fun s rd d => ⟨decode_d d rd rfl, _, rfl, setM_wroteM s rd d⟩⟩
  case ldi =>
    obtain ⟨t, run, wrote⟩ := finishX_wroteX s rd (d.setWidth 256)
    have value : (d.setWidth 256).toNat = d.toNat := BitVec.toNat_setWidth_of_le (by decide)
    exact ⟨t, _, run, wrote, value, limb_setWidth d 0, limb_setWidth d 1, limb_setWidth d 2, limb_setWidth d 3⟩

/-- Settles O24: LDL writes `with_limb` of the register's own value, whose limbs `limb_withLimb` gives. -/
theorem ldlReplacesOneLimb : Obligations.LdlReplacesOneLimb := by
  intro s rd k d
  obtain ⟨t, run, wrote⟩ := finishX_wroteX s rd (withLimb (s.xr rd) k d)
  exact ⟨decode_dl d rd k rfl, t, _, run, wrote, limb_withLimb (s.xr rd) k d⟩

/-- Settles O25: each read is a bare response; what is left is the value answered. -/
theorem readsAnswerAndWriteNothing : Obligations.ReadsAnswerAndWriteNothing := by
  refine ⟨?rdl, ?rdm, ?rdst⟩
  case rdl =>
    intro s rs1 k d
    rw [← limb_eq_ofNat_div]
    exact ⟨decode_sl d rs1 k rfl, _, rfl, respond_onlyResponded s 0 _⟩
  case rdm =>
    intro s rs1 d
    exact ⟨decode_s d rs1 rfl, _, rfl, respond_onlyResponded s 0 _⟩
  case rdst =>
    intro s d
    rw [BitVec.ofNat_toNat]
    exact ⟨decode_n (op := 0x06) d rfl, _, rfl, respond_onlyResponded s 0 _⟩

/-- Settles O27: MOV reads both parts of `rs1` before it writes `rd`, so `rd = rs1` is no special case. -/
theorem movCopiesBothParts : Obligations.MovCopiesBothParts :=
  fun s rd rs1 d => ⟨decode_r2 d rd rs1 rfl, _, rfl, setX_setM_wroteBoth s rd (s.xr rs1) (s.mr rs1)⟩

/-- Settles O26: NOP is a bare response; CLRERR is one on the state with `ERR` cleared. -/
theorem nopAndClrerr : Obligations.NopAndClrerr := by
  refine ⟨fun s d => ⟨decode_zero d, _, rfl, respond_onlyResponded s 0 0⟩, fun s d => ?clrerr⟩
  case clrerr =>
    have decoded : decode 0x07000000 d = .ok .clrerr := decode_n (op := 0x07) d rfl
    obtain ⟨regs, err, responds, host⟩ := respond_onlyResponded s.clearErr 0 0
    exact ⟨decoded, _, rfl, err, ⟨regs.xr, regs.mr⟩, responds, ⟨host.pins, host.received, host.fpSel, host.free⟩⟩

end Sys2Proof.Machine
end

section
/-! U256 values as naturals (00_scope.md R10, R12): the value of a limb, of the lowest limbs of a word, and of four limbs put
together. -/

namespace Sys2Proof.Machine

theorem toNat_limbAt (v : U256) (k : Nat) : (limbAt v k).toNat = v.toNat / 2 ^ (64 * k) % 2 ^ 64 := by
  simp [limbAt, Nat.shiftRight_eq_div_pow]

/-- The value of the `k + 1` lowest limbs: limb `k` stands above the `k` lowest. -/
theorem toNat_mod_limbs_succ (v : U256) (k : Nat) :
    v.toNat % 2 ^ (64 * (k + 1)) = v.toNat % 2 ^ (64 * k) + 2 ^ (64 * k) * (limbAt v k).toNat := by
  rw [toNat_limbAt, Nat.mul_succ, Nat.pow_add, Nat.mod_mul]

/-- The value of a word is `A·2^192 + B·2^128 + C·2^64 + D` (R10). -/
theorem toNat_eq_limbs (v : U256) :
    v.toNat =
      (limb v 3).toNat * 2 ^ 192 + (limb v 2).toNat * 2 ^ 128 + (limb v 1).toNat * 2 ^ 64 + (limb v 0).toNat := by
  have limb0 : (limb v 0).toNat = v.toNat / 2 ^ 0 % 2 ^ 64 := toNat_limbAt v 0
  have limb1 : (limb v 1).toNat = v.toNat / 2 ^ 64 % 2 ^ 64 := toNat_limbAt v 1
  have limb2 : (limb v 2).toNat = v.toNat / 2 ^ 128 % 2 ^ 64 := toNat_limbAt v 2
  have limb3 : (limb v 3).toNat = v.toNat / 2 ^ 192 % 2 ^ 64 := toNat_limbAt v 3
  have bounded : v.toNat < 2 ^ 256 := v.isLt
  omega

/-- Two words put together, the first above the second. -/
theorem toNat_append_eq_add {m n : Nat} (x : BitVec m) (y : BitVec n) : (x ++ y).toNat = x.toNat * 2 ^ n + y.toNat := by
  rw [BitVec.toNat_append, ← Nat.shiftLeft_add_eq_or_of_lt y.isLt, Nat.shiftLeft_eq]

theorem toNat_ofLimbs (a b c d : Limb) :
    (ofLimbs a b c d).toNat = a.toNat * 2 ^ 192 + b.toNat * 2 ^ 128 + c.toNat * 2 ^ 64 + d.toNat := by
  simp only [ofLimbs, toNat_append_eq_add]
  omega

end Sys2Proof.Machine
end

section
/-! U256 add, subtract, negate and complement as functions of the values (41_u256_addsub_logic.md R120, R123, R128). -/

namespace Sys2Proof.Machine

variable (a b v : U256)

theorem add256_eq_ofNat : add256 a b = BitVec.ofNat 256 (a.toNat + b.toNat) := rfl

theorem sub256_eq_ofNat : sub256 a b = BitVec.ofNat 256 (a.toNat + 2 ^ 256 - b.toNat) := by
  rw [sub256, BitVec.sub_def]
  congr 1
  have bounded : b.toNat < 2 ^ 256 := b.isLt
  omega

theorem add256_one_eq_ofNat : add256 v 1 = BitVec.ofNat 256 (v.toNat + 1) := add256_eq_ofNat v 1

theorem sub256_one_eq_ofNat : sub256 v 1 = BitVec.ofNat 256 (v.toNat + 2 ^ 256 - 1) := sub256_eq_ofNat v 1

theorem toNat_add256 : (add256 a b).toNat = (a.toNat + b.toNat) % 2 ^ 256 := BitVec.toNat_add a b

theorem toNat_sub256 : (sub256 a b).toNat = (a.toNat + 2 ^ 256 - b.toNat) % 2 ^ 256 := by
  rw [sub256_eq_ofNat, BitVec.toNat_ofNat]

/-- `MAX256 − v` inverts every bit. -/
theorem not256_eq_not : not256 v = ~~~v := BitVec.allOnes_sub_eq_not v

/-- Inverting all bits and adding 1 is subtraction from 2^256. -/
theorem neg256_eq_ofNat : neg256 v = BitVec.ofNat 256 (2 ^ 256 - v.toNat) :=
  calc neg256 v = ~~~v + 1#256 := congrArg (add256 · 1) (not256_eq_not v)
    _ = -v := (BitVec.neg_eq_not_add v).symm
    _ = BitVec.ofNat 256 (2 ^ 256 - v.toNat) := rfl

end Sys2Proof.Machine
end

section
/-! The limb procedures (41_u256_addsub_logic.md R120): what one limb of the adder or the subtractor says, as an equation
between naturals or integers; four of them in a chain, weighted with 2^64 each, are the equation of the 256-bit values. -/

namespace Sys2Proof.Machine

variable (a b : U256)

/-- One limb of the adder: limb and carry together are the sum. -/
theorem addLimb_sum (k : LimbIx) (c : Nat) :
    (addLimb a b k c).1.toNat + 2 ^ 64 * (addLimb a b k c).2 = (limb a k).toNat + (limb b k).toNat + c := by
  simp only [addLimb, BitVec.toNat_ofNat]
  exact Nat.mod_add_div _ _

/-- One limb of the subtractor: limb less borrow is the difference, as long as the borrow coming in is 0 or 1. -/
theorem subLimb_difference (k : LimbIx) {w : Int} (hw : w = 0 ∨ w = 1) :
    (subLimb a b k w).1.toNat - 2 ^ 64 * (subLimb a b k w).2 = (limb a k).toNat - (limb b k).toNat - w := by
  have ha := (limb a k).isLt
  have hb := (limb b k).isLt
  simp only [subLimb, BitVec.toNat_ofInt]
  split <;> omega

theorem subLimb_borrow (k : LimbIx) (w : Int) : (subLimb a b k w).2 = 0 ∨ (subLimb a b k w).2 = 1 := by
  simp only [subLimb]
  split
  · exact .inr rfl
  · exact .inl rfl

/-- The four limbs with the last carry are the sum of the values; the modular form discards that carry. -/
theorem add256Limbs_eq_add256 : add256Limbs a b = add256 a b := by
  unfold add256Limbs
  extract_lets r0 r1 r2 r3
  have limb0 : r0.1.toNat + 2 ^ 64 * r0.2 = _ := addLimb_sum a b 0 0
  have limb1 : r1.1.toNat + 2 ^ 64 * r1.2 = _ := addLimb_sum a b 1 r0.2
  have limb2 : r2.1.toNat + 2 ^ 64 * r2.2 = _ := addLimb_sum a b 2 r1.2
  have limb3 : r3.1.toNat + 2 ^ 64 * r3.2 = _ := addLimb_sum a b 3 r2.2
  have sum : (ofLimbs r3.1 r2.1 r1.1 r0.1).toNat + 2 ^ 256 * r3.2 = a.toNat + b.toNat := by
    rw [toNat_ofLimbs, toNat_eq_limbs a, toNat_eq_limbs b]
    omega
  apply BitVec.eq_of_toNat_eq
  rw [toNat_add256, ← sum, Nat.add_mul_mod_self_left, Nat.mod_eq_of_lt (BitVec.isLt _)]

/-- The four limbs less the last borrow are the difference of the values; the modular form discards that borrow. -/
theorem sub256Limbs_eq_sub256 : sub256Limbs a b = sub256 a b := by
  unfold sub256Limbs
  extract_lets r0 r1 r2 r3
  have limb0 : r0.1.toNat - 2 ^ 64 * r0.2 = _ := subLimb_difference a b 0 (.inl rfl)
  have limb1 : r1.1.toNat - 2 ^ 64 * r1.2 = _ := subLimb_difference a b 1 (subLimb_borrow a b 0 0)
  have limb2 : r2.1.toNat - 2 ^ 64 * r2.2 = _ := subLimb_difference a b 2 (subLimb_borrow a b 1 r0.2)
  have limb3 : r3.1.toNat - 2 ^ 64 * r3.2 = _ := subLimb_difference a b 3 (subLimb_borrow a b 2 r1.2)
  have difference : (ofLimbs r3.1 r2.1 r1.1 r0.1).toNat - 2 ^ 256 * r3.2 = (a.toNat : Int) - b.toNat := by
    rw [toNat_ofLimbs, toNat_eq_limbs a, toNat_eq_limbs b]
    omega
  have bounded : (ofLimbs r3.1 r2.1 r1.1 r0.1).toNat < 2 ^ 256 := BitVec.isLt _
  apply BitVec.eq_of_toNat_eq
  rw [toNat_sub256]
  omega

/-- Settles O32: the chains give the modular sum and difference, whatever the last carry or borrow is. -/
theorem carryChainIsModular : Obligations.CarryChainIsModular :=
  fun a b => ⟨add256Limbs_eq_add256 a b, sub256Limbs_eq_sub256 a b, toNat_add256 a b, toNat_sub256 a b⟩

end Sys2Proof.Machine
end

section
/-! The 256-bit comparison (41_u256_addsub_logic.md R129): lexicographic over the limbs is the order of the values. -/

namespace Sys2Proof.Machine

/-- A digit of higher weight outweighs everything below it. -/
theorem add_mul_lt_of_high_lt {p m x y : Nat} (n : Nat) (low : m < p) (high : x < y) : m + p * x < n + p * y :=
  calc m + p * x < p + p * x := Nat.add_lt_add_right low _
    _ = p * (x + 1) := by rw [Nat.mul_succ, Nat.add_comm]
    _ ≤ p * y := Nat.mul_le_mul_left p high
    _ ≤ n + p * y := Nat.le_add_left _ n

/-- The comparison of the `k` lowest limbs is that of their values. -/
theorem cmpLimbs_eq_compare (a b : U256) (k : Nat) :
    cmpLimbs a b k = compare (a.toNat % 2 ^ (64 * k)) (b.toNat % 2 ^ (64 * k)) := by
  induction k with
  | zero => simp [cmpLimbs, Nat.mod_one]
  | succ k ih =>
    have low (v : U256) : v.toNat % 2 ^ (64 * k) < 2 ^ (64 * k) := Nat.mod_lt _ (Nat.two_pow_pos _)
    rw [cmpLimbs, toNat_mod_limbs_succ a, toNat_mod_limbs_succ b, ih]
    split
    case isTrue lt => exact (Nat.compare_eq_lt.mpr (add_mul_lt_of_high_lt _ (low a) lt)).symm
    case isFalse notLt =>
      split
      case isTrue gt => exact (Nat.compare_eq_gt.mpr (add_mul_lt_of_high_lt _ (low b) gt)).symm
      case isFalse notGt =>
        have same : limbAt a k = limbAt b k := BitVec.le_antisymm (BitVec.not_lt.mp notGt) (BitVec.not_lt.mp notLt)
        simp only [same, Nat.compare_eq_ite_lt, Nat.add_lt_add_iff_right]

/-- R129's sentence on the unsigned values. -/
theorem cmp256_eq_compare (a b : U256) : cmp256 a b = compare a.toNat b.toNat := by
  have whole (v : U256) : v.toNat % 2 ^ (64 * 4) = v.toNat := Nat.mod_eq_of_lt v.isLt
  rw [cmp256, cmpLimbs_eq_compare, whole, whole]

theorem orderingData_compare (m n : Nat) :
    orderingData (compare m n) =
      if m < n then 0xFFFFFFFFFFFFFFFF#64 else if n < m then 0x0000000000000001#64 else 0 := by
  rw [Nat.compare_eq_ite_lt, apply_ite orderingData, apply_ite orderingData]
  rfl

end Sys2Proof.Machine
end

section
/-! The U256 commands of 41_u256_addsub_logic.md (R121 to R129). Each with a destination ends as `finishX` does, so
that what is left of it is the value written; U.CMP is a bare response. -/

namespace Sys2Proof.Machine

/-- A U256 command with a destination writes its value, whatever is known of that value. -/
theorem finishX_wroteX_of {P : U256 → Prop} {v : U256} (s : State) (rd : Reg) (hv : P v) :
    ∃ t w, s.finishX rd v = .next t ∧ WroteX s t rd w ∧ P w := by
  obtain ⟨t, run, wrote⟩ := finishX_wroteX s rd v
  exact ⟨t, v, run, wrote, hv⟩

/-- Settles O28: the sources are read before `rd` is written, so no aliasing of registers is a special case. -/
theorem addSubModulo : Obligations.AddSubModulo := by
  refine ⟨fun s rd rs1 rs2 d => ⟨decode_r3 d rd rs1 rs2 rfl, ?add⟩,
    fun s rd rs1 rs2 d => ⟨decode_r3 d rd rs1 rs2 rfl, ?sub⟩⟩
  case add =>
    rw [← add256_eq_ofNat]
    exact finishX_wroteX s rd _
  case sub =>
    rw [← sub256_eq_ofNat]
    exact finishX_wroteX s rd _

/-- Settles O29: U.INC and U.DEC are the adder and the subtractor with the constant 1. -/
theorem negIncDecModulo : Obligations.NegIncDecModulo := by
  refine ⟨fun s rd rs1 d => ⟨decode_r2 d rd rs1 rfl, ?neg⟩, fun s rd rs1 d => ⟨decode_r2 d rd rs1 rfl, ?inc⟩,
    fun s rd rs1 d => ⟨decode_r2 d rd rs1 rfl, ?dec⟩⟩
  case neg =>
    rw [← neg256_eq_ofNat]
    exact finishX_wroteX s rd _
  case inc =>
    rw [← add256_one_eq_ofNat]
    exact finishX_wroteX s rd _
  case dec =>
    rw [← sub256_one_eq_ofNat]
    exact finishX_wroteX s rd _

/-- Settles O30: AND and OR act bit by bit, and `not256_eq_not` says it of `MAX256 − v`. -/
theorem logicBitByBit : Obligations.LogicBitByBit := by
  refine ⟨fun s rd rs1 rs2 d => ⟨decode_r3 d rd rs1 rs2 rfl, finishX_wroteX_of s rd ?and⟩,
    fun s rd rs1 rs2 d => ⟨decode_r3 d rd rs1 rs2 rfl, finishX_wroteX_of s rd ?or⟩,
    fun s rd rs1 d => ⟨decode_r2 d rd rs1 rfl, finishX_wroteX_of s rd ?not⟩⟩
  case and => exact fun i _ => BitVec.getLsbD_and
  case or => exact fun i _ => BitVec.getLsbD_or
  case not =>
    intro i hi
    simp [not256_eq_not, hi]

/-- Settles O31: U.CMP is a bare response, whose data is the order of the values. -/
theorem uCmpComparesUnsigned : Obligations.UCmpComparesUnsigned := by
  intro s rs1 rs2 d
  rw [← orderingData_compare, ← cmp256_eq_compare]
  exact ⟨decode_c d rs1 rs2 rfl, _, rfl, respond_onlyResponded s 0 _⟩

end Sys2Proof.Machine
end

section
/-! U256 multiply, divide and modulo as functions of the values (42_u256_muldiv.md R150, R153, R154). -/

namespace Sys2Proof.Machine

theorem mul256_eq_ofNat (a b : U256) : mul256 a b = BitVec.ofNat 256 (a.toNat * b.toNat) := rfl

/-- A floor quotient is not above the dividend, so it fits in 256 bits. -/
theorem toNat_div256 (n d : U256) : (div256 n d).toNat = n.toNat / d.toNat := by
  have fits : n.toNat / d.toNat < 2 ^ 256 := Nat.lt_of_le_of_lt (Nat.div_le_self _ _) n.isLt
  rw [div256, BitVec.toNat_ofNat, Nat.mod_eq_of_lt fits]

/-- The matching remainder is the remainder of the naturals, not above the dividend either. -/
theorem toNat_mod256 (n d : U256) : (mod256 n d).toNat = n.toNat % d.toNat := by
  have fits : n.toNat % d.toNat < 2 ^ 256 := Nat.lt_of_le_of_lt (Nat.mod_le _ _) n.isLt
  rw [mod256, ← Nat.mod_eq_sub_div_mul, BitVec.toNat_ofNat, Nat.mod_eq_of_lt fits]

end Sys2Proof.Machine
end

section
/-! The commands of 42_u256_muldiv.md (R151, R153, R154). U.MUL ends as `finishX` does; U.DIV and U.MOD raise
DivisionByZero where the divisor is 0, and end as `finishX` does elsewhere. -/

namespace Sys2Proof.Machine

/-- Settles O34: the product of two words is by definition that of their values modulo 2^256. -/
theorem mulModulo : Obligations.MulModulo := by
  intro s rd rs1 rs2 d
  rw [← mul256_eq_ofNat]
  exact ⟨decode_r3 d rd rs1 rs2 rfl, finishX_wroteX s rd _⟩

/-- The two ends of U.DIV and U.MOD, which differ only in the value `v`: the fault at divisor 0, else the write. -/
theorem divideX_raised_or_wroteX {P : U256 → Prop} {v : U256} (s : State) (rd : Reg) (d : U256) (hv : P v) :
    (d = 0 → ∃ t, (if d = 0 then .next (s.raise .divisionByZero) else s.finishX rd v) = .next t ∧ Raised s t 1) ∧
    (d ≠ 0 → ∃ t w, (if d = 0 then .next (s.raise .divisionByZero) else s.finishX rd v) = .next t ∧
      WroteX s t rd w ∧ P w) := by
  constructor
  · intro zero
    rw [if_pos zero]
    exact ⟨_, rfl, raise_raised s .divisionByZero⟩
  · intro nonzero
    rw [if_neg nonzero]
    exact finishX_wroteX_of s rd hv

section
variable {s t : State} {rd rs1 rs2 : Reg}

/-- A run has one end: what is known of the value some end wrote is known of the destination. -/
theorem of_wroteX_run {P : U256 → Prop} {r : Result} (ends : ∃ u v, r = .next u ∧ WroteX s u rd v ∧ P v)
    (run : r = .next t) : P (t.xr rd) := by
  obtain ⟨u, v, run', wrote, hv⟩ := ends
  cases run'.symm.trans run
  rwa [wrote.xr rd, if_pos rfl]

theorem toNat_xr_of_exec_udiv (nonzero : s.xr rs2 ≠ 0) (run : exec (.udiv rd rs1 rs2) s = .next t) :
    (t.xr rd).toNat = (s.xr rs1).toNat / (s.xr rs2).toNat :=
  of_wroteX_run (P := fun v => v.toNat = _) ((divideX_raised_or_wroteX s rd _ (toNat_div256 _ _)).2 nonzero) run

theorem toNat_xr_of_exec_umod (nonzero : s.xr rs2 ≠ 0) (run : exec (.umod rd rs1 rs2) s = .next t) :
    (t.xr rd).toNat = (s.xr rs1).toNat % (s.xr rs2).toNat :=
  of_wroteX_run (P := fun v => v.toNat = _) ((divideX_raised_or_wroteX s rd _ (toNat_mod256 _ _)).2 nonzero) run

end

/-- Settles O36: the two ends of each command, then the division of naturals for the pair of them. -/
theorem divModFloor : Obligations.DivModFloor := by
  refine ⟨fun s rd rs1 rs2 d => ⟨decode_r3 d rd rs1 rs2 rfl, ?div⟩,
    fun s rd rs1 rs2 d => ⟨decode_r3 d rd rs1 rs2 rfl, ?mod⟩, ?pair⟩
  case div => exact divideX_raised_or_wroteX s rd _ (toNat_div256 _ _)
  case mod => exact divideX_raised_or_wroteX s rd _ (toNat_mod256 _ _)
  case pair =>
    intro s t u rd rd' rs1 rs2 nonzero div mod
    have positive : 0 < (s.xr rs2).toNat := Nat.pos_of_ne_zero fun zero => nonzero (BitVec.eq_of_toNat_eq zero)
    rw [toNat_xr_of_exec_udiv nonzero div, toNat_xr_of_exec_umod nonzero mod]
    exact ⟨(Nat.div_add_mod' _ _).symm, Nat.mod_lt _ positive⟩

end Sys2Proof.Machine
end

section
/-! The shift functions (43_u256_shift.md R170, R171) as shifts of words of any count, and from there as functions of the
values and of the bits. -/

namespace Sys2Proof.Machine

variable (v : U256) (k : Nat)

theorem shl256_of_ge {k : Nat} (large : 256 ≤ k) : shl256 v k = 0 := if_neg (Nat.not_lt.mpr large)

theorem shr256_of_ge {k : Nat} (large : 256 ≤ k) : shr256 v k = 0 := if_neg (Nat.not_lt.mpr large)

/-- A shift of a word by its width or more is 0 as well, so that the case of large counts is none of its own. -/
theorem shl256_eq_shiftLeft : shl256 v k = v <<< k := by
  rcases Nat.lt_or_ge k 256 with small | large
  · exact if_pos small
  · rw [shl256_of_ge v large, BitVec.shiftLeft_eq_zero large]
    rfl

theorem shr256_eq_ushiftRight : shr256 v k = v >>> k := by
  rcases Nat.lt_or_ge k 256 with small | large
  · exact if_pos small
  · rw [shr256_of_ge v large, BitVec.ushiftRight_eq_zero large]
    rfl

theorem toNat_shl256 : (shl256 v k).toNat = v.toNat * 2 ^ k % 2 ^ 256 := by
  rw [shl256_eq_shiftLeft, BitVec.toNat_shiftLeft, Nat.shiftLeft_eq]

theorem toNat_shr256 : (shr256 v k).toNat = v.toNat / 2 ^ k := by
  rw [shr256_eq_ushiftRight, BitVec.toNat_ushiftRight, Nat.shiftRight_eq_div_pow]

theorem getLsbD_shl256 {i : Nat} (hi : i < 256) :
    (shl256 v k).getLsbD i = (decide (k ≤ i) && v.getLsbD (i - k)) := by
  rw [shl256_eq_shiftLeft, BitVec.getLsbD_shiftLeft, ← decide_not]
  simp only [hi, decide_true, Bool.true_and, Nat.not_lt]

/-- A bit above the top of the word reads as 0, so the position needs no bound. -/
theorem getLsbD_shr256 (i : Nat) : (shr256 v k).getLsbD i = v.getLsbD (i + k) := by
  rw [shr256_eq_ushiftRight, BitVec.getLsbD_ushiftRight, Nat.add_comm]

/-- The same with the bound of R170 written out. -/
theorem getLsbD_shr256_guarded (i : Nat) : (shr256 v k).getLsbD i = (decide (i + k ≤ 255) && v.getLsbD (i + k)) := by
  rw [getLsbD_shr256]
  by_cases inside : i + k ≤ 255
  · simp [inside]
  · simp [inside, BitVec.getLsbD_of_ge v (i + k) (by omega)]

end Sys2Proof.Machine
end

section
/-! The barrel shifter limb by limb (43_u256_shift.md R170): limb `k` of a shifted word is the limb formula for `k`, bit by
bit. A bit of the result has one source, in the limb `s / 64` places away or in the one beyond it. -/

namespace Sys2Proof.Machine

variable (v : U256) (s k : Nat)

theorem getLsbD_limbAt (i : Nat) : (limbAt v k).getLsbD i = (decide (i < 64) && v.getLsbD (64 * k + i)) := by
  simp [limbAt]

/-- A word is its four limbs put together. -/
theorem ofLimbs_limbs : ofLimbs (limbAt v 3) (limbAt v 2) (limbAt v 1) (limbAt v 0) = v := by
  apply BitVec.eq_of_toNat_eq
  rw [toNat_ofLimbs, toNat_eq_limbs v]
  rfl

/-- An absent term has no bits. -/
theorem getLsbD_ite_zero {n : Nat} (p : Prop) [Decidable p] (w : BitVec n) (i : Nat) :
    (if p then w else 0).getLsbD i = (decide p && w.getLsbD i) := by
  split
  case isTrue present => simp [present]
  case isFalse absent => simp [absent]

/-- Bit `i` of the left shifter's limb `k`: from limb `k − q` where `t ≤ i`, from limb `k − q − 1` where `i < t`. -/
theorem getLsbD_shlLimb {i : Nat} (hi : i < 64) :
    (shlLimb v s k).getLsbD i = (decide (s ≤ 64 * k + i) && v.getLsbD (64 * k + i - s)) := by
  have parts : 64 * (s / 64) + s % 64 = s := Nat.div_add_mod s 64
  have ht : s % 64 < 64 := Nat.mod_lt s (by decide)
  simp only [shlLimb, BitVec.getLsbD_or, getLsbD_ite_zero, BitVec.getLsbD_shiftLeft, BitVec.getLsbD_ushiftRight,
    getLsbD_limbAt]
  generalize s / 64 = q, s % 64 = t at *
  by_cases near : t ≤ i
  case pos =>
    have source (present : q ≤ k) : 64 * (k - q) + (i - t) = 64 * k + i - s := by omega
    have reach : q ≤ k ↔ s ≤ 64 * k + i := by omega
    have high_absent : ¬ 64 - t + i < 64 := by omega
    by_cases present : q ≤ k
    · simp [hi, near, high_absent, present, source present, reach.mp present, show i - t < 64 by omega]
    · simp [high_absent, present, mt reach.mpr present]
  case neg =>
    have source (present : q + 1 ≤ k) : 64 * (k - q - 1) + (64 - t + i) = 64 * k + i - s := by omega
    have reach : q + 1 ≤ k ↔ s ≤ 64 * k + i := by omega
    have low_absent : i < t := Nat.lt_of_not_le near
    by_cases present : q + 1 ≤ k
    · simp [low_absent, present, source present, reach.mp present, show t ≠ 0 by omega, show 64 - t + i < 64 by omega]
    · simp [low_absent, present, mt reach.mpr present]

/-- Bit `i` of the right shifter's limb `k`: from limb `k + q` where `t + i < 64`, from limb `k + q + 1` elsewhere. -/
theorem getLsbD_shrLimb {i : Nat} (hi : i < 64) : (shrLimb v s k).getLsbD i = v.getLsbD (64 * k + i + s) := by
  have parts : 64 * (s / 64) + s % 64 = s := Nat.div_add_mod s 64
  have ht : s % 64 < 64 := Nat.mod_lt s (by decide)
  simp only [shrLimb, BitVec.getLsbD_or, getLsbD_ite_zero, BitVec.getLsbD_shiftLeft, BitVec.getLsbD_ushiftRight,
    getLsbD_limbAt]
  generalize s / 64 = q, s % 64 = t at *
  by_cases near : t + i < 64
  case pos =>
    have source : 64 * (k + q) + (t + i) = 64 * k + i + s := by omega
    have high_absent : i < 64 - t := by omega
    simp [near, source, high_absent]
  case neg =>
    have source : 64 * (k + q + 1) + (i - (64 - t)) = 64 * k + i + s := by omega
    have high_present : t ≠ 0 ∧ ¬ i < 64 - t := by omega
    simp [hi, near, source, high_present, show i - (64 - t) < 64 by omega]

theorem limbAt_shl256 {k : Nat} (hk : k < 4) : limbAt (shl256 v s) k = shlLimb v s k := by
  apply BitVec.eq_of_getLsbD_eq
  intro i hi
  rw [getLsbD_limbAt, getLsbD_shl256 v s (show 64 * k + i < 256 by omega), getLsbD_shlLimb v s k hi]
  simp [hi]

theorem limbAt_shr256 : limbAt (shr256 v s) k = shrLimb v s k := by
  apply BitVec.eq_of_getLsbD_eq
  intro i hi
  rw [getLsbD_limbAt, getLsbD_shr256, getLsbD_shrLimb v s k hi]
  simp [hi]

/-- The limb formulas give the shifted word, whatever the count. -/
theorem shl256Limbs_eq_shl256 : shl256Limbs v s = shl256 v s := by
  rw [shl256Limbs, ← limbAt_shl256 v s (k := 3) (by decide), ← limbAt_shl256 v s (k := 2) (by decide),
    ← limbAt_shl256 v s (k := 1) (by decide), ← limbAt_shl256 v s (k := 0) (by decide), ofLimbs_limbs]

theorem shr256Limbs_eq_shr256 : shr256Limbs v s = shr256 v s := by
  simp only [shr256Limbs, ← limbAt_shr256, ofLimbs_limbs]

/-- Settles O40: the functions on values and bits, the limb formulas, and the counts of 256 and above. -/
theorem shifterLimbsAndBits : Obligations.ShifterLimbsAndBits :=
  ⟨fun v k => ⟨toNat_shl256 v k, toNat_shr256 v k, fun _ => getLsbD_shl256 v k, fun i _ => getLsbD_shr256_guarded v k i⟩,
    fun v k _ => ⟨shl256Limbs_eq_shl256 v k, shr256Limbs_eq_shr256 v k⟩,
    fun v _ large => ⟨shl256_of_ge v large, shr256_of_ge v large⟩⟩

end Sys2Proof.Machine
end

section
/-! Round trips and composition of shifts (43_u256_shift.md R176): a shift out and back loses the bits that left the word,
which are a remainder of the value. -/

namespace Sys2Proof.Machine

variable (x : U256)

theorem toNat_shr256_shl256 {k : Nat} (hk : k ≤ 256) :
    (shr256 (shl256 x k) k).toNat = x.toNat % 2 ^ (256 - k) := by
  have parts : 2 ^ 256 = 2 ^ (256 - k) * 2 ^ k := by rw [← Nat.pow_add, Nat.sub_add_cancel hk]
  rw [toNat_shr256, toNat_shl256, parts, Nat.mul_mod_mul_right, Nat.mul_div_cancel _ (Nat.two_pow_pos k)]

theorem toNat_shl256_shr256 (k : Nat) : (shl256 (shr256 x k) k).toNat = x.toNat - x.toNat % 2 ^ k := by
  have fits : x.toNat / 2 ^ k * 2 ^ k < 2 ^ 256 := Nat.lt_of_le_of_lt (Nat.div_mul_le_self _ _) x.isLt
  rw [toNat_shl256, toNat_shr256, Nat.mod_eq_of_lt fits, Nat.div_mul_self_eq_mod_sub_self]

theorem shl256_shl256 (a b : Nat) : shl256 (shl256 x a) b = shl256 x (a + b) := by
  simp only [shl256_eq_shiftLeft, BitVec.shiftLeft_add]

theorem shr256_shr256 (a b : Nat) : shr256 (shr256 x a) b = shr256 x (a + b) := by
  simp only [shr256_eq_ushiftRight, BitVec.shiftRight_add]

/-- Settles O41: where `x` has no bits to lose, the remainder of the round trip is `x`. -/
theorem shiftRoundTrips : Obligations.ShiftRoundTrips := by
  refine ⟨fun x k hk => ⟨fun small => ?back, toNat_shr256_shl256 x hk, toNat_shl256_shr256 x k⟩,
    fun x a b => ⟨shl256_shl256 x a b, shr256_shr256 x a b⟩⟩
  case back =>
    apply BitVec.eq_of_toNat_eq
    rw [toNat_shr256_shl256 x hk, Nat.mod_eq_of_lt small]

end Sys2Proof.Machine
end

section
/-! The commands of 43_u256_shift.md (R172 to R175). All four end as `finishX` does; they differ in the function and in
where the count comes from. -/

namespace Sys2Proof.Machine

/-- The count of the register forms is limb D of the count register. -/
theorem shiftCount_eq_mod (s : State) (rs2 : Reg) : s.shiftCount rs2 = (s.xr rs2).toNat % 2 ^ 64 := by
  rw [State.shiftCount, limb, toNat_limbAt]
  simp

/-- Every 12-bit count has a word: the field holds the count itself. -/
theorem decode_i_of_field {op : BitVec 8} {mk : Reg → Reg → Nat → Instr} (h : rowOf op = some (rowI mk)) (rd rs1 : Reg)
    (c : BitVec 12) (d : CmdData) : decode (packWord op rd rs1 0 c) d = .ok (mk rd rs1 c.toNat) := by
  have decoded := decode_i d rd rs1 c.toNat c.isLt h
  rwa [BitVec.ofNat_toNat, BitVec.setWidth_eq] at decoded

/-- Settles O39: `toNat_shl256` and `toNat_shr256` hold for every count, so none is reduced. -/
theorem shiftsAreLogical : Obligations.ShiftsAreLogical := by
  refine ⟨fun s rd rs1 rs2 d => ⟨decode_r3 d rd rs1 rs2 rfl, finishX_wroteX_of s rd ?shl⟩,
    fun s rd rs1 rs2 d => ⟨decode_r3 d rd rs1 rs2 rfl, finishX_wroteX_of s rd ?shr⟩,
    fun s rd rs1 c d => ⟨decode_i_of_field rfl rd rs1 c d, finishX_wroteX_of s rd (toNat_shl256 _ _)⟩,
    fun s rd rs1 c d => ⟨decode_i_of_field rfl rd rs1 c d, finishX_wroteX_of s rd (toNat_shr256 _ _)⟩⟩
  case shl => rw [toNat_shl256, shiftCount_eq_mod]
  case shr => rw [toNat_shr256, shiftCount_eq_mod]

end Sys2Proof.Machine
end

section
/-! Loops over a finite type: a `while` loop that ends does so before it has gone through every value once. This is why
`loopBound` loses no run of the loops of 44_sd_normalize.md R193. -/

namespace Sys2Proof.Machine

/-- The loop `while go m: m <- next m`, started at `m`, ends after exactly `k` turns. -/
def EndsAfter {α : Type} (go : α → Bool) (next : α → α) (m : α) (k : Nat) : Prop :=
  match k with
  | 0 => go m = false
  | k + 1 => go m = true ∧ EndsAfter go next (next m) k

variable {α : Type} {go : α → Bool} {next : α → α} {m : α} {j k : Nat}

theorem EndsAfter.unique (hj : EndsAfter go next m j) (hk : EndsAfter go next m k) : j = k := by
  induction j generalizing m k with
  | zero =>
    cases k with
    | zero => rfl
    | succ k => exact absurd (hj.symm.trans hk.1) (by decide)
  | succ j ih =>
    cases k with
    | zero => exact absurd (hk.symm.trans hj.1) (by decide)
    | succ k => rw [ih hj.2 hk.2]

/-- A turn of a loop that ends changes the value: the number of turns left is another. -/
theorem EndsAfter.next_ne (h : EndsAfter go next m (k + 1)) : next m ≠ m := fun same =>
  Nat.succ_ne_self k (h.unique (same ▸ h.2))

/-- After `i` turns there are `k` left. -/
theorem EndsAfter.iterate {i : Nat} (h : EndsAfter go next m (i + k)) : EndsAfter go next (next^[i] m) k := by
  induction i generalizing m with
  | zero => rwa [Nat.zero_add] at h
  | succ i ih =>
    rw [Nat.add_right_comm] at h
    exact ih h.2

/-- The values looked at are all different, since each leaves another number of turns; so there are no more of them than the
type has. -/
theorem EndsAfter.lt_card [Fintype α] (h : EndsAfter go next m k) : k < Fintype.card α := by
  have left (i : Fin (k + 1)) : EndsAfter go next (next^[i] m) (k - i) :=
    EndsAfter.iterate (by rwa [Nat.add_sub_cancel' (Nat.le_of_lt_succ i.isLt)])
  have different : Function.Injective fun i : Fin (k + 1) => next^[i] m := by
    intro a b (same : next^[a] m = next^[b] m)
    have count : k - a = k - b := (left a).unique (same ▸ left b)
    omega
  simpa using Fintype.card_le_of_injective _ different

end Sys2Proof.Machine
end

section
/-! The loops of normalization are those of the pseudocode (44_sd_normalize.md R193): `divideLoop_runs` and
`multiplyLoop_runs` say that nothing is invented; here, that no run that ends is lost. -/

namespace Sys2Proof.Machine

variable {n : Nat} {fp : FP} {v w : ScaledDec n}

/-- A loop over mantissas that ends does so within the bound. -/
theorem EndsAfter.lt_loopBound {go : F64 → Bool} {next : F64 → F64} {m : F64} {k : Nat} (h : EndsAfter go next m k) :
    k < loopBound := by
  have mantissas : Fintype.card F64 = loopBound := by
    rw [Fintype.card_congr (BitVec.equivFin (m := 64)).toEquiv, Fintype.card_fin, loopBound]
  exact mantissas ▸ h.lt_card

/-- The loop started at `m` ends, and `answer`, which may look at `fuel` mantissas, gives `r` wherever they are enough. -/
def LoopAnswers {β : Type} (go : F64 → Bool) (next : F64 → F64) (m : F64) (answer : Nat → Option β) (r : β) : Prop :=
  ∃ k, EndsAfter go next m k ∧ ∀ fuel, k < fuel → answer fuel = some r

section
variable {β : Type} {go : F64 → Bool} {next : F64 → F64} {m : F64} {answer rest : Nat → Option β} {r : β}

theorem LoopAnswers.of_stop (stop : go m = false) (answers : ∀ fuel, answer (fuel + 1) = some r) :
    LoopAnswers go next m answer r := by
  refine ⟨0, stop, fun fuel enough => ?_⟩
  obtain ⟨fuel, rfl⟩ := Nat.exists_eq_succ_of_ne_zero enough.ne'
  exact answers fuel

/-- One turn more. That the mantissa changes is no premise of it: a loop that ends changes it. -/
theorem LoopAnswers.of_turn (turn : go m = true) (h : LoopAnswers go next (next m) rest r)
    (continues : next m ≠ m → ∀ fuel, answer (fuel + 1) = rest fuel) : LoopAnswers go next m answer r := by
  obtain ⟨k, ends, answers⟩ := h
  have turns : EndsAfter go next m (k + 1) := ⟨turn, ends⟩
  refine ⟨k + 1, turns, fun fuel enough => ?_⟩
  obtain ⟨fuel, rfl⟩ := Nat.exists_eq_succ_of_ne_zero (Nat.ne_zero_of_lt enough)
  rw [continues turns.next_ne]
  exact answers fuel (Nat.lt_of_succ_lt_succ enough)

theorem LoopAnswers.at_loopBound (h : LoopAnswers go next m answer r) : answer loopBound = some r := by
  obtain ⟨k, ends, answers⟩ := h
  exact answers loopBound ends.lt_loopBound

end

theorem DivideRuns.loopAnswers (h : DivideRuns fp v w) :
    LoopAnswers (fun m => fp.le fp.one (fp.abs m)) (fun m => fp.div m fp.ten) v.mant
      (fun fuel => divideLoop fp fuel v) w := by
  induction h with
  | stop v stop => exact .of_stop stop fun fuel => by rw [divideLoop_succ, if_neg (Bool.eq_false_iff.mp stop)]
  | turn v w go _ ih => exact .of_turn go ih fun changes fuel => by rw [divideLoop_succ, if_pos go, if_neg changes]

theorem MultiplyRuns.loopAnswers (h : MultiplyRuns fp v w) :
    LoopAnswers (fun m => fp.le fp.zero m && fp.lt m fp.tenth) (fun m => fp.mul m fp.ten) v.mant
      (fun fuel => multiplyLoop fp fuel v) w := by
  induction h with
  | stop v stop => exact .of_stop stop fun fuel => by rw [multiplyLoop_succ, if_neg (Bool.eq_false_iff.mp stop)]
  | turn v w go _ ih => exact .of_turn go ih fun changes fuel => by rw [multiplyLoop_succ, if_pos go, if_neg changes]

theorem divideLoop_eq_some_iff : divideLoop fp loopBound v = some w ↔ DivideRuns fp v w :=
  ⟨divideLoop_runs fp loopBound v w, fun runs => runs.loopAnswers.at_loopBound⟩

theorem multiplyLoop_eq_some_iff : multiplyLoop fp loopBound v = some w ↔ MultiplyRuns fp v w :=
  ⟨multiplyLoop_runs fp loopBound v w, fun runs => runs.loopAnswers.at_loopBound⟩

/-- Normalization: step 0, else the two loops one after the other. -/
theorem normalize_eq (fp : FP) (v : ScaledDec n) :
    normalize fp v =
      if fp.eq v.mant fp.zero then some v else (divideLoop fp loopBound v).bind (multiplyLoop fp loopBound) := by
  unfold normalize
  cases divideLoop fp loopBound v <;> rfl

/-- Normalization answers exactly where the pseudocode ends, with its value. -/
theorem normalize_eq_some_iff : normalize fp v = some w ↔ NormalizesTo fp v w := by
  rw [normalize_eq, NormalizesTo]
  cases zero : fp.eq v.mant fp.zero with
  | true => simp [eq_comm]
  | false => simp [Option.bind_eq_some_iff, divideLoop_eq_some_iff, multiplyLoop_eq_some_iff]

/-- Normalization never ends exactly where the pseudocode does not. -/
theorem normalize_eq_none_iff : normalize fp v = none ↔ ∀ w, ¬ NormalizesTo fp v w := by
  simp only [Option.eq_none_iff_forall_ne_some, ne_eq, normalize_eq_some_iff]

end Sys2Proof.Machine
end

section
/-! The scaled-decimal view of a register (10_state.md R23) at the two widths of the commands: for 64 bits the exponent is
limb D, for 256 bits the whole integer part. -/

namespace Sys2Proof.Machine

theorem setWidth_eq_limb_zero (x : U256) : x.setWidth 64 = limb x 0 := by
  apply BitVec.eq_of_getLsbD_eq
  intro i hi
  rw [getLsbD_limb hi]
  simp [hi]

theorem State.sd_64 (s : State) (i : Reg) : s.sd 64 i = ⟨s.mr i, limb (s.xr i) 0⟩ := by
  rw [State.sd, State.expW, setWidth_eq_limb_zero]

theorem State.sd_256 (s : State) (i : Reg) : s.sd 256 i = ⟨s.mr i, s.xr i⟩ := by
  rw [State.sd, State.expW, BitVec.setWidth_eq]

end Sys2Proof.Machine
end

section
/-! SDW.NORM (44_sd_normalize.md R197), through the end it shares with every command that normalizes its result. -/

namespace Sys2Proof.Machine

variable {n : Nat} {fp : FP} {v : ScaledDec n}

/-- A command that ends with a normalization writes the normalized value where the pseudocode ends. -/
theorem finishSd_normalize_wroteBoth {w : ScaledDec n} (s : State) (rd : Reg) (ends : NormalizesTo fp v w) :
    WroteBoth s (s.finishSd rd (normalize fp v)) rd (w.exp.setWidth 256) w.mant := by
  rw [normalize_eq_some_iff.mpr ends, finishSd_some]
  exact putSd_wroteBoth s rd w

/-- It hangs where the pseudocode does not end. -/
theorem finishSd_normalize_hung (s : State) (rd : Reg) (never : ∀ w, ¬ NormalizesTo fp v w) :
    Hung s (s.finishSd rd (normalize fp v)) := by
  rw [normalize_eq_none_iff.mpr never, finishSd_none]
  exact hang_hung s

/-- SDW.NORM for any width. -/
theorem sdNorm_writes_or_hangs (n : Nat) (s : State) (rd rs1 : Reg) :
    (∀ w, NormalizesTo s.fp (s.sd n rs1) w →
        ∃ t, sdNorm n rd rs1 s = .next t ∧ WroteBoth s t rd (w.exp.setWidth 256) w.mant) ∧
      ((∀ w, ¬ NormalizesTo s.fp (s.sd n rs1) w) → ∃ t, sdNorm n rd rs1 s = .next t ∧ Hung s t) :=
  ⟨fun _ ends => ⟨_, rfl, finishSd_normalize_wroteBoth s rd ends⟩,
    fun never => ⟨_, rfl, finishSd_normalize_hung s rd never⟩⟩

/-- Settles O43: SDW.NORM for any width, at the two views of the source. -/
theorem normWritesNormalizedOrHangs : Obligations.NormWritesNormalizedOrHangs := by
  refine ⟨fun s rd rs1 d => ⟨decode_r2 d rd rs1 rfl, ?sd64⟩, fun s rd rs1 d => ⟨decode_r2 d rd rs1 rfl, ?sd256⟩⟩
  case sd64 =>
    rw [← State.sd_64]
    exact sdNorm_writes_or_hangs 64 s rd rs1
  case sd256 =>
    have wide := sdNorm_writes_or_hangs 256 s rd rs1
    simp only [State.sd_256, BitVec.setWidth_eq] at wide
    exact wide

end Sys2Proof.Machine
end

section
/-! SDW.NEG (44_sd_normalize.md R198), and `FP.neg` of the default instantiation (R190). -/

namespace Sys2Proof.Machine

/-- SDW.NEG for any width: the exponent is written back as it was read, with nothing normalized. -/
theorem sdNeg_wroteBoth (n : Nat) (s : State) (rd rs1 : Reg) :
    ∃ t, sdNeg n rd rs1 s = .next t ∧ WroteBoth s t rd ((s.sd n rs1).exp.setWidth 256) (s.fp.neg (s.mr rs1)) :=
  ⟨_, rfl, putSd_wroteBoth s rd (negateSd s.fp (s.sd n rs1))⟩

theorem f64Neg_eq_xor_twoPow (a : F64) : f64Neg a = a ^^^ BitVec.twoPow 64 63 := rfl

theorem f64Neg_f64Neg (a : F64) : f64Neg (f64Neg a) = a := by
  simp only [f64Neg_eq_xor_twoPow, BitVec.xor_assoc, BitVec.xor_self, BitVec.xor_zero]

theorem getLsbD_f64Neg (a : F64) (i : Nat) : (f64Neg a).getLsbD i = if i = 63 then !a.getLsbD i else a.getLsbD i := by
  rw [f64Neg_eq_xor_twoPow, BitVec.getLsbD_xor, BitVec.getLsbD_twoPow]
  by_cases sign : i = 63
  · simp [sign]
  · simp [sign, Ne.symm sign]

/-- Settles O44: SDW.NEG for any width, at the two views of the source; the default `FP.neg` inverts the sign bit. -/
theorem negFlipsSignOnly : Obligations.NegFlipsSignOnly := by
  refine ⟨fun s rd rs1 d => ⟨decode_r2 d rd rs1 rfl, ?sd64⟩, fun s rd rs1 d => ⟨decode_r2 d rd rs1 rfl, ?sd256⟩,
    fun a => ⟨f64Neg_f64Neg a, fun i _ => getLsbD_f64Neg a i⟩⟩
  case sd64 =>
    have narrow := sdNeg_wroteBoth 64 s rd rs1
    rw [State.sd_64] at narrow
    rw [BitVec.ofNat_toNat]
    exact narrow
  case sd256 =>
    have wide := sdNeg_wroteBoth 256 s rd rs1
    rw [State.sd_256, BitVec.setWidth_eq] at wide
    exact wide

end Sys2Proof.Machine
end

section
/-! Aligned addition (45_sd_arith.md R220): `alignedAdd` is the pseudocode of `sdaddW`, whichever operand has the larger
exponent, so that it answers exactly where `AddsTo` ends. -/

namespace Sys2Proof.Machine

variable {n : Nat} {fp : FP} {a b big small w : ScaledDec n}

/-- `sdaddW` from the moment the operand with the larger exponent is known. -/
def addToLarger {n : Nat} (fp : FP) (big small : ScaledDec n) : Option (ScaledDec n) :=
  let delta := big.exp.toNat - small.exp.toNat
  if delta ≤ 16 then normalize fp ⟨fp.add big.mant (fp.div small.mant (fp.p10 delta)), big.exp⟩ else some big

theorem alignedAdd_of_exp_eq (fp : FP) (same : a.exp = b.exp) :
    alignedAdd fp a b = normalize fp ⟨fp.add a.mant b.mant, a.exp⟩ := if_pos same

/-- No wrap happens in the subtraction of the exponents, and the cutoff is an unsigned comparison of naturals. -/
theorem alignedAdd_of_exp_gt (fp : FP) (larger : b.exp < a.exp) : alignedAdd fp a b = addToLarger fp a b := by
  simp [alignedAdd, addToLarger, alignmentCutoff, larger, (BitVec.ne_of_lt larger).symm,
    BitVec.toNat_sub_of_le (BitVec.le_of_lt larger)]

theorem alignedAdd_of_exp_lt (fp : FP) (larger : a.exp < b.exp) : alignedAdd fp a b = addToLarger fp b a := by
  simp [alignedAdd, addToLarger, alignmentCutoff, BitVec.lt_asymm larger, BitVec.ne_of_lt larger,
    BitVec.toNat_sub_of_le (BitVec.le_of_lt larger)]

theorem addToLarger_eq_some_iff :
    addToLarger fp big small = some w ↔
      (big.exp.toNat - small.exp.toNat ≤ 16 ∧
          NormalizesTo fp
            ⟨fp.add big.mant (fp.div small.mant (fp.p10 (big.exp.toNat - small.exp.toNat))), big.exp⟩ w) ∨
        (16 < big.exp.toNat - small.exp.toNat ∧ w = big) := by
  rw [addToLarger]
  split
  case isTrue within => simp [within, normalize_eq_some_iff]
  case isFalse beyond => simp [beyond, Nat.lt_of_not_le beyond, eq_comm]

/-- The operand with the larger exponent is the first or the second. -/
theorem addsTo_iff :
    AddsTo fp a b w ↔
      (a.exp = b.exp ∧ NormalizesTo fp ⟨fp.add a.mant b.mant, a.exp⟩ w) ∨
        (b.exp < a.exp ∧ addToLarger fp a b = some w) ∨ (a.exp < b.exp ∧ addToLarger fp b a = some w) := by
  simp only [AddsTo, addToLarger_eq_some_iff, ← BitVec.lt_def, or_and_right, exists_or, and_assoc, exists_and_left,
    exists_eq_left]

/-- Aligned addition answers exactly where the pseudocode ends, with its value. -/
theorem alignedAdd_eq_some_iff : alignedAdd fp a b = some w ↔ AddsTo fp a b w := by
  rw [addsTo_iff]
  rcases BitVec.lt_trichotomy a.exp b.exp with lt | same | gt
  · simp [alignedAdd_of_exp_lt fp lt, lt, BitVec.ne_of_lt lt, BitVec.lt_asymm lt]
  · simp [alignedAdd_of_exp_eq fp same, same, normalize_eq_some_iff]
  · simp [alignedAdd_of_exp_gt fp gt, gt, (BitVec.ne_of_lt gt).symm, BitVec.lt_asymm gt]

end Sys2Proof.Machine
end

section
/-! SDW.ADD, SDW.SUB and SDW.MUL (45_sd_arith.md R221 to R223). All three end as `finishSd` does; they differ in the
procedure whose value they write. -/

namespace Sys2Proof.Machine

/-- A command that ends as `finishSd` does writes the value its procedure ends with, and hangs where it does not end. -/
theorem finishSd_writes_or_hangs {n : Nat} {answer : Option (ScaledDec n)} {Ends : ScaledDec n → Prop} {r : Result}
    (s : State) (rd : Reg) (run : r = .next (s.finishSd rd answer)) (answers : ∀ w, answer = some w ↔ Ends w) :
    (∀ w, Ends w → ∃ t, r = .next t ∧ WroteBoth s t rd (w.exp.setWidth 256) w.mant) ∧
      ((∀ w, ¬ Ends w) → ∃ t, r = .next t ∧ Hung s t) := by
  refine ⟨fun w ends => ⟨_, run, ?writes⟩, fun never => ⟨_, run, ?hangs⟩⟩
  case writes =>
    rw [(answers w).mpr ends, finishSd_some]
    exact putSd_wroteBoth s rd w
  case hangs =>
    have unanswered : answer = none := Option.eq_none_iff_forall_ne_some.mpr fun w h => never w ((answers w).mp h)
    rw [unanswered, finishSd_none]
    exact hang_hung s

/-- For 256 bits the exponent written is the exponent itself. -/
theorem finishSd_writes_or_hangs_256 {answer : Option (ScaledDec 256)} {Ends : ScaledDec 256 → Prop} {r : Result}
    (s : State) (rd : Reg) (run : r = .next (s.finishSd rd answer)) (answers : ∀ w, answer = some w ↔ Ends w) :
    (∀ w, Ends w → ∃ t, r = .next t ∧ WroteBoth s t rd w.exp w.mant) ∧
      ((∀ w, ¬ Ends w) → ∃ t, r = .next t ∧ Hung s t) := by
  simpa only [BitVec.setWidth_eq] using finishSd_writes_or_hangs s rd run answers

/-- Settles O48: the procedure is `sdaddW` of the two sources as they stand. -/
theorem addAlignsByExponent : Obligations.AddAlignsByExponent := by
  refine ⟨fun s rd rs1 rs2 d => ⟨decode_r3 d rd rs1 rs2 rfl, ?sd64⟩,
    fun s rd rs1 rs2 d => ⟨decode_r3 d rd rs1 rs2 rfl, ?sd256⟩⟩
  case sd64 => exact finishSd_writes_or_hangs s rd rfl fun _ => alignedAdd_eq_some_iff
  case sd256 => exact finishSd_writes_or_hangs_256 s rd rfl fun _ => alignedAdd_eq_some_iff

/-- Settles O49: the procedure is `sdaddW` again, with the second source negated. -/
theorem subAddsTheNegated : Obligations.SubAddsTheNegated := by
  refine ⟨fun s rd rs1 rs2 d => ⟨decode_r3 d rd rs1 rs2 rfl, ?sd64⟩,
    fun s rd rs1 rs2 d => ⟨decode_r3 d rd rs1 rs2 rfl, ?sd256⟩⟩
  case sd64 => exact finishSd_writes_or_hangs s rd rfl fun _ => alignedAdd_eq_some_iff
  case sd256 => exact finishSd_writes_or_hangs_256 s rd rfl fun _ => alignedAdd_eq_some_iff

/-- The sum of the exponents is that of their values modulo 2^n, with nothing said of the carry (R223). -/
theorem multiplySd_eq_some_iff {n : Nat} {fp : FP} {a b w : ScaledDec n} :
    multiplySd fp a b = some w ↔
      NormalizesTo fp ⟨fp.mul a.mant b.mant, BitVec.ofNat n (a.exp.toNat + b.exp.toNat)⟩ w := by
  rw [multiplySd, normalize_eq_some_iff, BitVec.add_def]

theorem State.expW_256 (s : State) (i : Reg) : s.expW 256 i = s.xr i := BitVec.setWidth_eq (s.xr i)

/-- Settles O50: the procedure is the normalization of the product. -/
theorem mulMultipliesAndAdds : Obligations.MulMultipliesAndAdds := by
  refine ⟨fun s rd rs1 rs2 d => ⟨decode_r3 d rd rs1 rs2 rfl, ?sd64⟩,
    fun s rd rs1 rs2 d => ⟨decode_r3 d rd rs1 rs2 rfl, ?sd256⟩⟩
  case sd64 => exact finishSd_writes_or_hangs s rd rfl fun _ => multiplySd_eq_some_iff
  case sd256 =>
    rw [← s.expW_256 rs1, ← s.expW_256 rs2]
    exact finishSd_writes_or_hangs_256 s rd rfl fun _ => multiplySd_eq_some_iff

end Sys2Proof.Machine
end

section
/-! SDW.CMP under the default `FP` is a total order (46_sd_compare_convert.md R242): `sdcmpW` compares the ranks of its
operands, which lie in a linear order, so that the laws of that order are those of the command. -/

namespace Sys2Proof.Machine

section
variable {α : Type} [LinearOrder α]

/-- A procedure that looks at the next part of its operands only where this part is equal compares lexicographically. -/
theorem ite_ne_lt_eq_compare_then (p q : α) (c : Ordering) :
    (if p ≠ q then (if p < q then .lt else .gt) else c) = (compare p q).then c := by
  rcases lt_trichotomy p q with lt | rfl | gt
  · simp [lt, lt.ne, compare_lt_iff_lt.mpr lt]
  · simp
  · simp [gt.ne', gt.not_gt, compare_gt_iff_gt.mpr gt]

theorem ite_lt_gt_eq_compare (p q : α) : (if p < q then .lt else if q < p then .gt else .eq) = compare p q := by
  rcases lt_trichotomy p q with lt | rfl | gt
  · simp [lt, compare_lt_iff_lt.mpr lt]
  · simp
  · simp [gt, gt.not_gt, compare_gt_iff_gt.mpr gt]

/-- The later part of a comparison matters only where the earlier part is equal. -/
theorem then_congr_right {c x y : Ordering} (h : c = .eq → x = y) : c.then x = c.then y := by
  cases c with
  | lt => rfl
  | eq => exact h rfl
  | gt => rfl

end

/-! ### The default comparisons and the sign, through the key of the patterns -/

section
variable {a b : F64} (ha : f64IsNan a = false) (hb : f64IsNan b = false)
include ha hb

theorem f64Lt_eq_decide : f64Lt a b = decide (f64Key a < f64Key b) := by simp [f64Lt, ha, hb]

theorem f64Eq_eq_decide : f64Eq a b = decide (f64Key a = f64Key b) := by simp [f64Eq, ha, hb]

end

/-- The two zeros are no NaNs and have one key. -/
theorem f64IsNan_f64Key_of_zero {z : F64} (h : z = 0x0000000000000000#64 ∨ z = 0x8000000000000000#64) :
    f64IsNan z = false ∧ f64Key z = 0 := by
  rcases h with rfl | rfl <;> decide

theorem Sign.toInt_injective : Function.Injective Sign.toInt := by
  intro g h
  cases g <;> cases h <;> simp [Sign.toInt]

/-- The sign of a mantissa that is not a NaN is that of its key. -/
theorem sign_ieeeFp {m : F64} (number : f64IsNan m = false) :
    ∃ g, sign ieeeFp m = some g ∧ g.toInt = (f64Key m).sign := by
  obtain ⟨zeroNumber, zeroKey⟩ := f64IsNan_f64Key_of_zero (.inl rfl)
  have eq : ieeeFp.eq m ieeeFp.zero = decide (f64Key m = 0) := zeroKey ▸ f64Eq_eq_decide number zeroNumber
  have gt : ieeeFp.lt ieeeFp.zero m = decide (0 < f64Key m) := zeroKey ▸ f64Lt_eq_decide zeroNumber number
  have lt : ieeeFp.lt m ieeeFp.zero = decide (f64Key m < 0) := zeroKey ▸ f64Lt_eq_decide number zeroNumber
  simp only [sign, eq, gt, lt, decide_eq_true_eq]
  rcases lt_trichotomy (f64Key m) 0 with neg | zero | pos
  · exact ⟨.negative, by simp [neg, neg.ne, neg.not_gt], (Int.sign_eq_neg_one_of_neg neg).symm⟩
  · exact ⟨.zero, by simp [zero], by simp [zero, Sign.toInt]⟩
  · exact ⟨.positive, by simp [pos, pos.ne'], (Int.sign_eq_one_of_pos pos).symm⟩

/-! ### The rank -/

/-- What a comparison sees of an operand, the weightiest part first: its sign, then its exponent, then its mantissa; of
a zero, the sign alone. -/
def sdRank {n : Nat} (v : ScaledDec n) : ℤ ×ₗ ℕ ×ₗ ℤ :=
  toLex ((f64Key v.mant).sign, if f64Key v.mant = 0 then toLex (0, 0) else toLex (v.exp.toNat, f64Key v.mant))

/-- All zeros have one rank, whatever their sign bits and exponents. -/
theorem sdRank_of_zero {n : Nat} {m : F64} (e : BitVec n) (zero : f64Key m = 0) :
    sdRank ⟨m, e⟩ = toLex (0, toLex (0, 0)) := by
  simp [sdRank, zero]

theorem compare_toLex {α β : Type} [Ord α] [Ord β] (p q : α) (x y : β) :
    compare (toLex (p, x)) (toLex (q, y)) = (compare p q).then (compare x y) := rfl

/-- `sdcmpW` compares ranks. -/
theorem compareSd_ieeeFp {n : Nat} {a b : ScaledDec n} (ha : f64IsNan a.mant = false) (hb : f64IsNan b.mant = false) :
    compareSd ieeeFp a b = some (compare (sdRank a) (sdRank b)) := by
  obtain ⟨sa, signA, intA⟩ := sign_ieeeFp ha
  obtain ⟨sb, signB, intB⟩ := sign_ieeeFp hb
  have ltAB : ieeeFp.lt a.mant b.mant = decide (f64Key a.mant < f64Key b.mant) := f64Lt_eq_decide ha hb
  have ltBA : ieeeFp.lt b.mant a.mant = decide (f64Key b.mant < f64Key a.mant) := f64Lt_eq_decide hb ha
  have zero : sa = .zero ↔ f64Key a.mant = 0 := by
    rw [← Int.sign_eq_zero_iff_zero, ← intA]
    exact Sign.toInt_injective.eq_iff.symm
  have signs : sa ≠ sb ↔ (f64Key a.mant).sign ≠ (f64Key b.mant).sign := by
    rw [← intA, ← intB]
    exact Sign.toInt_injective.ne_iff.symm
  have exps : a.exp ≠ b.exp ↔ a.exp.toNat ≠ b.exp.toNat := BitVec.toNat_ne_iff_ne.symm
  simp only [compareSd, signA, signB, signs, intA, intB, zero, exps, BitVec.lt_def, ltAB, ltBA, decide_eq_true_eq,
    ite_ne_lt_eq_compare_then, ite_lt_gt_eq_compare, sdRank, compare_toLex, Option.some.injEq]
  refine then_congr_right fun same => ?_
  have zeros : f64Key a.mant = 0 ↔ f64Key b.mant = 0 := by
    rw [← Int.sign_eq_zero_iff_zero, compare_eq_iff_eq.mp same, Int.sign_eq_zero_iff_zero]
  simp only [← zeros]
  split
  · exact (compare_eq_iff_eq.mpr rfl).symm
  · rfl

/-- Settles O54: the laws are those of the linear order of the ranks; the two zeros have one rank. -/
theorem cmpIsATotalOrder : Obligations.CmpIsATotalOrder := by
  refine ⟨fun n a b c ha hb hc => ⟨_, _, _, compareSd_ieeeFp ha hb, compareSd_ieeeFp hb hc, compareSd_ieeeFp ha hc,
    ?mirror, ?lt, ?eq⟩, fun n ea eb za zb hza hzb => ?zeros⟩
  case mirror => rw [compareSd_ieeeFp hb ha, ← Std.OrientedOrd.eq_swap]
  case lt =>
    simp only [compare_lt_iff_lt]
    exact lt_trans
  case eq =>
    intro same
    rw [compare_eq_iff_eq.mp same]
  case zeros =>
    obtain ⟨numberA, keyA⟩ := f64IsNan_f64Key_of_zero hza
    obtain ⟨numberB, keyB⟩ := f64IsNan_f64Key_of_zero hzb
    have same : sdRank ⟨za, ea⟩ = sdRank ⟨zb, eb⟩ := by rw [sdRank_of_zero ea keyA, sdRank_of_zero eb keyB]
    rw [compareSd_ieeeFp numberA numberB, compare_eq_iff_eq.mpr same]

end Sys2Proof.Machine
end

section
/-! RealValue and SDW.REAL (46_sd_compare_convert.md R243, R245). -/

namespace Sys2Proof.Machine

theorem toNat_expW (s : State) (n : Nat) (i : Reg) : (s.expW n i).toNat = (s.xr i).toNat % 2 ^ n :=
  BitVec.toNat_setWidth n (s.xr i)

/-- RealValue of a register, its computed case first. -/
theorem realValue_sd (s : State) (n : Nat) (i : Reg) :
    realValue s.fp (s.sd n i) =
      if (s.xr i).toNat % 2 ^ n ≤ 308 then s.fp.mul (s.mr i) (s.fp.pow10 ((s.xr i).toNat % 2 ^ n)) else s.fp.max := by
  simp only [realValue, realLimit, State.sd, toNat_expW, ← Nat.not_le, ite_not]

/-- SDW.REAL for any width is a bare response, with RealValue at the value of the exponent. -/
theorem sdReal_onlyResponded (n : Nat) (s : State) (rs1 : Reg) :
    ∃ t, sdReal n rs1 s = .next t ∧
      OnlyResponded s t 0
        (if (s.xr rs1).toNat % 2 ^ n ≤ 308 then s.fp.mul (s.mr rs1) (s.fp.pow10 ((s.xr rs1).toNat % 2 ^ n))
        else s.fp.max) := by
  rw [← realValue_sd]
  exact ⟨_, rfl, respond_onlyResponded s 0 _⟩

/-- Settles O55: SDW.REAL for any width, where the whole integer part is its own value modulo 2^256. -/
theorem realSaturatesAbove308 : Obligations.RealSaturatesAbove308 := by
  refine ⟨fun s rs1 d => ⟨decode_s d rs1 rfl, sdReal_onlyResponded 64 s rs1⟩,
    fun s rs1 d => ⟨decode_s d rs1 rfl, ?sd256⟩⟩
  case sd256 =>
    have wide := sdReal_onlyResponded 256 s rs1
    rw [Nat.mod_eq_of_lt (s.xr rs1).isLt] at wide
    exact wide

end Sys2Proof.Machine
end

section
/-! Faults (60_exceptions.md R274): a response with a code that is not 0 comes from the fault procedure, which changes
nothing but `ERR`. -/

namespace Sys2Proof.Machine

/-- A faulting command is the fault procedure on the state it began in, at most a free value drawn from it. -/
theorem exec_eq_raise_of_fault {i : Instr} {s t : State} {r : Response} (run : exec i s = .next t) (rsp : t.rsp = some r)
    (fault : r.status ≠ 0) : ∃ (u : State) (c : FaultCode), (u = s ∨ u = s.drawn) ∧ t = u.raise c ∧ r = ⟨c.code, 0⟩ := by
  have ends := exec_commandEnd i s
  rw [run] at ends
  cases ends with
  | done u => cases rsp; exact absurd rfl fault
  | answered u d => cases rsp; exact absurd rfl fault
  | raised u c drawn => cases rsp; exact ⟨u, c, drawn, rfl, rfl⟩
  | hung u => cases rsp

/-- A drawn free value is no register: what has the registers of `s.drawn` has those of `s`. -/
theorem SameRegs.of_drawn {s t : State} (h : SameRegs s.drawn t) : SameRegs s t := ⟨h.xr, h.mr⟩

/-- Settles O16: a legal command that faults and an illegal word both end in the fault procedure. -/
theorem faultsChangeOnlyErr : Obligations.FaultsChangeOnlyErr := by
  refine ⟨fun i s t r run rsp fault => ?legal, fun w d why s ill => ?illegal⟩
  case legal =>
    obtain ⟨u, c, drawn, rfl, rfl⟩ := exec_eq_raise_of_fault run rsp fault
    have raised := raise_raised u c
    rcases drawn with rfl | rfl
    · exact ⟨raised.regs, raised.err, rfl, raised.responds.busy⟩
    · exact ⟨raised.regs.of_drawn, raised.err, rfl, raised.responds.busy⟩
  case illegal => exact ⟨_, runCommand_of_illegal ill s, raise_raised s .illegalCommand⟩

end Sys2Proof.Machine
end

section
/-! Encoding and decoding are inverse to each other (30_encoding.md R71, R72, R76): every instruction's round trip, and that
of every legal word, one lemma a format. -/

namespace Sys2Proof

open Machine

/-- Every instruction makes the round trip through the encoder: the lemma of its constructor. -/
theorem roundTrip (i : Instr) : Laws.RoundTrip.Statement i := by
  cases i with
  | nop => exact Laws.RoundTrip.nop
  | ldi => exact Laws.RoundTrip.ldi _ _
  | ldl => exact Laws.RoundTrip.ldl _ _ _
  | ldm => exact Laws.RoundTrip.ldm _ _
  | rdl => exact Laws.RoundTrip.rdl _ _
  | rdm => exact Laws.RoundTrip.rdm _
  | rdst => exact Laws.RoundTrip.rdst
  | clrerr => exact Laws.RoundTrip.clrerr
  | mov => exact Laws.RoundTrip.mov _ _
  | uadd => exact Laws.RoundTrip.uadd _ _ _
  | usub => exact Laws.RoundTrip.usub _ _ _
  | uneg => exact Laws.RoundTrip.uneg _ _
  | uinc => exact Laws.RoundTrip.uinc _ _
  | udec => exact Laws.RoundTrip.udec _ _
  | umul => exact Laws.RoundTrip.umul _ _ _
  | udiv => exact Laws.RoundTrip.udiv _ _ _
  | umod => exact Laws.RoundTrip.umod _ _ _
  | uand => exact Laws.RoundTrip.uand _ _ _
  | uor => exact Laws.RoundTrip.uor _ _ _
  | unot => exact Laws.RoundTrip.unot _ _
  | ushl => exact Laws.RoundTrip.ushl _ _ _
  | ushr => exact Laws.RoundTrip.ushr _ _ _
  | ushli => exact Laws.RoundTrip.ushli _ _ _
  | ushri => exact Laws.RoundTrip.ushri _ _ _
  | ucmp => exact Laws.RoundTrip.ucmp _ _
  | sd64Norm => exact Laws.RoundTrip.sd64Norm _ _
  | sd64Add => exact Laws.RoundTrip.sd64Add _ _ _
  | sd64Sub => exact Laws.RoundTrip.sd64Sub _ _ _
  | sd64Neg => exact Laws.RoundTrip.sd64Neg _ _
  | sd64Mul => exact Laws.RoundTrip.sd64Mul _ _ _
  | sd64Div => exact Laws.RoundTrip.sd64Div _ _ _
  | sd64Cmp => exact Laws.RoundTrip.sd64Cmp _ _
  | sd64Real => exact Laws.RoundTrip.sd64Real _
  | sd64Cvtd => exact Laws.RoundTrip.sd64Cvtd _
  | sd64Cvts => exact Laws.RoundTrip.sd64Cvts _
  | sd256Norm => exact Laws.RoundTrip.sd256Norm _ _
  | sd256Add => exact Laws.RoundTrip.sd256Add _ _ _
  | sd256Sub => exact Laws.RoundTrip.sd256Sub _ _ _
  | sd256Neg => exact Laws.RoundTrip.sd256Neg _ _
  | sd256Mul => exact Laws.RoundTrip.sd256Mul _ _ _
  | sd256Div => exact Laws.RoundTrip.sd256Div _ _ _
  | sd256Cmp => exact Laws.RoundTrip.sd256Cmp _ _
  | sd256Real => exact Laws.RoundTrip.sd256Real _
  | sd256Cvtd => exact Laws.RoundTrip.sd256Cvtd _
  | sd256Cvts => exact Laws.RoundTrip.sd256Cvts _

/-- Settles O1, by the constructor of the instruction. -/
theorem decodeEncodeAgree : Obligations.DecodeEncodeAgree := roundTrip

/-! ### A word is what its format fixes and what its format leaves to the operands -/

/-- The bits of a word outside the mask of its row are its operands; those inside are the match word. -/
theorem eq_matchWord_or {w : CmdWord} {op : BitVec 8} {f : Format} (matched : w &&& formatMask f = matchWord op) :
    matchWord op ||| (w &&& ~~~formatMask f) = w := by
  apply BitVec.eq_of_getLsbD_eq
  intro i hi
  simp [← matched, hi, ← Bool.and_or_distrib_left]

/-! Each field, put back in its place, is the word under the mask of that field (R71). -/

section
variable (w : CmdWord)

theorem rdOf_in_place : (regField (rdOf w)).setWidth 32 <<< 21 = w &&& 0x00E00000#32 := by
  rw [show regField (rdOf w) = w.extractLsb' 21 3 from rfl]
  apply BitVec.eq_of_getLsbD_eq
  intro i hi
  interval_cases i <;> simp

theorem rs1Of_in_place : (regField (rs1Of w)).setWidth 32 <<< 18 = w &&& 0x001C0000#32 := by
  rw [show regField (rs1Of w) = w.extractLsb' 18 3 from rfl]
  apply BitVec.eq_of_getLsbD_eq
  intro i hi
  interval_cases i <;> simp

theorem rs2Of_in_place : (regField (rs2Of w)).setWidth 32 <<< 15 = w &&& 0x00038000#32 := by
  rw [show regField (rs2Of w) = w.extractLsb' 15 3 from rfl]
  apply BitVec.eq_of_getLsbD_eq
  intro i hi
  interval_cases i <;> simp

theorem imm12Of_in_place : (imm12Of w).setWidth 32 = w &&& 0x00000FFF#32 := by
  rw [imm12Of]
  apply BitVec.eq_of_getLsbD_eq
  intro i hi
  interval_cases i <;> simp

theorem limbOf_in_place : (limbField (limbOf w)).setWidth 32 = w &&& 0x00000003#32 := by
  rw [show limbField (limbOf w) = (w.extractLsb' 0 2).setWidth 12 from rfl]
  apply BitVec.eq_of_getLsbD_eq
  intro i hi
  interval_cases i <;> simp

theorem zero_in_place (k : Nat) : (regField 0).setWidth 32 <<< k = 0#32 := by
  rw [show regField 0 = 0#3 from rfl, BitVec.setWidth_zero, BitVec.zero_shiftLeft]

end

/-! So the operands of a format, put back, are the word outside the mask of that format (R72). -/

section
variable (op : BitVec 8) (w : CmdWord)

theorem packWord_operands_n : packWord op 0 0 0 0 = matchWord op ||| (w &&& ~~~formatMask .n) := by
  simp [packWord, matchWord, zero_in_place, formatMask]

theorem packWord_operands_d : packWord op (rdOf w) 0 0 0 = matchWord op ||| (w &&& ~~~formatMask .d) := by
  simp [packWord, matchWord, zero_in_place, rdOf_in_place, formatMask]

theorem packWord_operands_dl :
    packWord op (rdOf w) 0 0 (limbField (limbOf w)) = matchWord op ||| (w &&& ~~~formatMask .dl) := by
  simp [packWord, matchWord, zero_in_place, rdOf_in_place, limbOf_in_place, formatMask, BitVec.or_assoc,
    ← BitVec.and_or_distrib_left]

theorem packWord_operands_s : packWord op 0 (rs1Of w) 0 0 = matchWord op ||| (w &&& ~~~formatMask .s) := by
  simp [packWord, matchWord, zero_in_place, rs1Of_in_place, formatMask]

theorem packWord_operands_sl :
    packWord op 0 (rs1Of w) 0 (limbField (limbOf w)) = matchWord op ||| (w &&& ~~~formatMask .sl) := by
  simp [packWord, matchWord, zero_in_place, rs1Of_in_place, limbOf_in_place, formatMask, BitVec.or_assoc,
    ← BitVec.and_or_distrib_left]

theorem packWord_operands_r2 :
    packWord op (rdOf w) (rs1Of w) 0 0 = matchWord op ||| (w &&& ~~~formatMask .r2) := by
  simp [packWord, matchWord, zero_in_place, rdOf_in_place, rs1Of_in_place, formatMask, BitVec.or_assoc,
    ← BitVec.and_or_distrib_left]

theorem packWord_operands_r3 :
    packWord op (rdOf w) (rs1Of w) (rs2Of w) 0 = matchWord op ||| (w &&& ~~~formatMask .r3) := by
  simp [packWord, matchWord, rdOf_in_place, rs1Of_in_place, rs2Of_in_place, formatMask, BitVec.or_assoc,
    ← BitVec.and_or_distrib_left]

theorem packWord_operands_c :
    packWord op 0 (rs1Of w) (rs2Of w) 0 = matchWord op ||| (w &&& ~~~formatMask .c) := by
  simp [packWord, matchWord, zero_in_place, rs1Of_in_place, rs2Of_in_place, formatMask, BitVec.or_assoc,
    ← BitVec.and_or_distrib_left]

theorem packWord_operands_i :
    packWord op (rdOf w) (rs1Of w) 0 (BitVec.ofNat 12 (imm12Of w).toNat) =
      matchWord op ||| (w &&& ~~~formatMask .i) := by
  rw [BitVec.ofNat_toNat, BitVec.setWidth_eq]
  simp [packWord, matchWord, zero_in_place, rdOf_in_place, rs1Of_in_place, imm12Of_in_place, formatMask,
    BitVec.or_assoc, ← BitVec.and_or_distrib_left]

end

/-- What a row builds from a word is well-formed, and its encoding is what the row fixes of the word with the operands
put back, and the data word where it is used. -/
structure Row.Faithful (op : BitVec 8) (r : Row) : Prop where
  wf : ∀ w d, (r.build w d).wf = true
  word : ∀ w d, (encode (r.build w d)).1 = matchWord op ||| (w &&& ~~~formatMask r.format)
  data : ∀ w d, usesCmdData (r.build w d) = true → (encode (r.build w d)).2 = d

/-- Every row of the table is faithful: one case a format. -/
theorem rowOf_faithful {op : BitVec 8} {r : Row} (h : rowOf op = some r) : r.Faithful op := by
  unfold rowOf at h
  split at h <;> cases h
  case h_1 | h_7 | h_8 => exact ⟨fun _ _ => rfl, fun w _ => packWord_operands_n _ w, fun _ _ unused => nomatch unused⟩
  case h_2 | h_4 => exact ⟨fun _ _ => rfl, fun w _ => packWord_operands_d _ w, fun _ _ _ => rfl⟩
  case h_3 => exact ⟨fun _ _ => rfl, fun w _ => packWord_operands_dl _ w, fun _ _ _ => rfl⟩
  case h_5 => exact ⟨fun _ _ => rfl, fun w _ => packWord_operands_sl _ w, fun _ _ unused => nomatch unused⟩
  case h_6 | h_33 | h_34 | h_35 | h_43 | h_44 | h_45 =>
    exact ⟨fun _ _ => rfl, fun w _ => packWord_operands_s _ w, fun _ _ unused => nomatch unused⟩
  case h_9 | h_12 | h_13 | h_14 | h_20 | h_26 | h_29 | h_36 | h_39 =>
    exact ⟨fun _ _ => rfl, fun w _ => packWord_operands_r2 _ w, fun _ _ unused => nomatch unused⟩
  case h_25 | h_32 | h_42 =>
    exact ⟨fun _ _ => rfl, fun w _ => packWord_operands_c _ w, fun _ _ unused => nomatch unused⟩
  case h_23 | h_24 =>
    exact ⟨fun w _ => decide_eq_true (imm12Of w).isLt, fun w _ => packWord_operands_i _ w,
      fun _ _ unused => nomatch unused⟩
  all_goals exact ⟨fun _ _ => rfl, fun w _ => packWord_operands_r3 _ w, fun _ _ unused => nomatch unused⟩

/-- A legal word selects the row of its own opcode. -/
theorem row_of_decode_ok {w : CmdWord} {d : CmdData} {i : Instr} (h : decode w d = .ok i) :
    ∃ r, rowOf (opcodeOf w) = some r ∧ w &&& formatMask r.format = matchWord (opcodeOf w) ∧ i = r.build w d := by
  rcases decode_cases w d with ⟨_, ill⟩ | ⟨r, row, ⟨matched, ok⟩ | ⟨_, ill⟩⟩
  · cases ill.symm.trans h
  · cases ok.symm.trans h
    exact ⟨r, row, matched, rfl⟩
  · cases ill.symm.trans h

/-- Settles O2: the row's faithfulness, where the word matches what the row fixes. -/
theorem encodeDecodeAgree : Obligations.EncodeDecodeAgree := by
  intro w d i h
  obtain ⟨r, row, matched, rfl⟩ := row_of_decode_ok h
  have faithful := rowOf_faithful row
  exact ⟨faithful.wf w d, (faithful.word w d).trans (eq_matchWord_or matched), faithful.data w d⟩

/-! ### The row a word selects -/

theorem opcodeOf_matchWord (op : BitVec 8) : opcodeOf (matchWord op) = op := by
  apply BitVec.eq_of_getLsbD_eq
  intro i hi
  interval_cases i <;> simp [opcodeOf, matchWord]

/-- Every format fixes the whole opcode. -/
theorem opcodeOf_formatMask (f : Format) : opcodeOf (formatMask f) = BitVec.allOnes 8 := by
  cases f <;> rfl

/-- A word that matches a row has the opcode of that row. -/
theorem opcodeOf_eq_of_matches {w : CmdWord} {op : BitVec 8} {f : Format} (matched : w &&& formatMask f = matchWord op) :
    opcodeOf w = op :=
  calc opcodeOf w = opcodeOf w &&& opcodeOf (formatMask f) := by rw [opcodeOf_formatMask, BitVec.and_allOnes]
    _ = opcodeOf (w &&& formatMask f) := BitVec.extractLsb'_and.symm
    _ = op := by rw [matched, opcodeOf_matchWord]

/-- Settles O3: the row a word matches is the row of its opcode, where the decoder looks. -/
theorem wordSelectsRowByMask : Obligations.WordSelectsRowByMask := by
  intro w d i
  constructor
  · intro h
    exact ⟨opcodeOf w, row_of_decode_ok h⟩
  · rintro ⟨op, r, row, matched, rfl⟩
    obtain rfl := opcodeOf_eq_of_matches matched
    exact decode_of_row d row matched

/-- Settles O5, by running the decoder on each word. -/
theorem writtenWordsDecode : Obligations.WrittenWordsDecode := by
  unfold Obligations.WrittenWordsDecode
  decide

end Sys2Proof
end

section
/-! The invariant of the port and of `ERR`, and what else follows from how a command can end: `exec_commandEnd` says it
of a legal command, `runCommand_of_illegal` of an illegal word, `clockEdge_cases` and `step_cases` of an edge. -/

namespace Sys2Proof.Machine

variable {i : Instr} {s t u : State}

/-- The fault codes that some rule produces; InvalidOperand is none of them (60_exceptions.md R273). -/
theorem producedCode_of_ne {c : FaultCode} (h : c ≠ .invalidOperand) : producedCode c.code := by
  cases c with
  | divisionByZero => exact .inr (.inl rfl)
  | overflow => exact .inr (.inr (.inl rfl))
  | invalidOperand => exact absurd rfl h
  | illegalCommand => exact .inr (.inr (.inr rfl))

theorem FaultCode.code_ne_zero (c : FaultCode) : c.code ≠ 0 := by
  cases c <;> decide

/-! ### The ends of a command, and the edges without one, keep the invariant -/

/-- The invariant speaks of `ERR`, BUSY, the response and the responses taken alone. -/
theorem Inv.of_fields (inv : Inv s) (err : t.err = s.err) (busy : t.busy = s.busy) (rsp : t.rsp = s.rsp)
    (received : t.received = s.received) : Inv t :=
  ⟨err ▸ inv.err, by rw [rsp, busy, err]; exact inv.rsp, received ▸ inv.received⟩

theorem Inv.drawn (inv : Inv s) : Inv s.drawn := inv.of_fields rfl rfl rfl rfl

theorem Inv.of_drawn (inv : Inv s) (h : u = s ∨ u = s.drawn) : Inv u := by
  rcases h with rfl | rfl
  · exact inv
  · exact inv.drawn

/-- A response with status 0 keeps the invariant, whatever stood at the port. -/
theorem Inv.respond_zero (err : producedCode u.err) (received : ∀ r ∈ u.received, legalResponse r) (d : BitVec 64) :
    Inv (u.respond 0 d) where
  err := err
  rsp r h := by
    obtain rfl : ⟨0, d⟩ = r := Option.some.inj h
    exact ⟨rfl, ⟨.inl rfl, fun nonzero => absurd rfl nonzero⟩, fun nonzero => absurd rfl nonzero⟩
  received := received

/-- The fault procedure keeps it: the code is one that some rule produces, and `ERR` is left non-zero. -/
theorem Inv.raise (inv : Inv u) {c : FaultCode} (produced : c ≠ .invalidOperand) : Inv (u.raise c) where
  err := by
    rw [State.raise_err]
    split
    · exact producedCode_of_ne produced
    · exact inv.err
  rsp r h := by
    obtain rfl : ⟨c.code, 0⟩ = r := Option.some.inj h
    refine ⟨rfl, ⟨producedCode_of_ne produced, fun _ => rfl⟩, fun _ => ?_⟩
    rw [State.raise_err]
    split
    case isTrue => exact c.code_ne_zero
    case isFalse recorded => exact recorded
  received := inv.received

theorem Inv.hang (inv : Inv u) : Inv u.hang := ⟨inv.err, fun _ h => (nomatch h), inv.received⟩

/-- A delivery moves a legal response from the port to those taken. -/
theorem Inv.deliver (inv : Inv s) {r : Response} (rsp : s.rsp = some r) : Inv (s.deliver r) where
  err := inv.err
  rsp _ h := nomatch h
  received r' h := by
    rcases List.mem_append.mp h with old | new
    · exact inv.received r' old
    · obtain rfl := List.mem_singleton.mp new
      exact (inv.rsp _ rsp).2.1

theorem Inv.resetBlock (inv : Inv s) : Inv s.resetBlock := ⟨.inl rfl, fun _ h => (nomatch h), inv.received⟩

/-! ### Every step keeps the invariant -/

/-- A legal command: CLRERR empties `ERR`, every other one ends as `CommandEnd` says. -/
theorem exec_keeps_inv (inv : Inv s) (run : exec i s = .next t) : Inv t := by
  by_cases clears : i = .clrerr
  · subst clears
    cases run
    exact Inv.respond_zero (u := s.clearErr) (.inl rfl) inv.received 0
  · have ends := exec_commandEnd i s
    rw [run] at ends
    cases ends with
    | done u err _ received =>
      exact Inv.respond_zero (err clears ▸ inv.err) (by rw [received]; exact inv.received) 0
    | answered u d drawn => exact Inv.respond_zero (inv.of_drawn drawn).err (inv.of_drawn drawn).received d
    | raised u c drawn origin =>
      refine (inv.of_drawn drawn).raise ?_
      rcases origin with ⟨rfl, _⟩ | ⟨rfl, _⟩ <;> decide
    | hung u drawn => exact (inv.of_drawn drawn).hang

/-- An accepted command, legal or not. -/
theorem runCommand_keeps_inv {w : CmdWord} {d : CmdData} (inv : Inv s) (run : runCommand w d s = .next t) : Inv t := by
  rcases runCommand_cases w d s with ⟨i, _, legal⟩ | ⟨_, _, illegal⟩
  · exact exec_keeps_inv inv (legal.symm.trans run)
  · cases illegal.symm.trans run
    exact inv.raise (by decide)

theorem clockEdge_keeps_inv {p : Pins} (inv : Inv s) (run : clockEdge p s = .next t) : Inv t := by
  rcases clockEdge_cases p s with ⟨_, reset⟩ | ⟨_, _, _, accepted⟩ | ⟨r, _, rsp, _, delivered⟩ | ⟨_, quiet⟩
  · cases reset.symm.trans run
    exact inv.resetBlock
  · exact runCommand_keeps_inv inv (accepted.symm.trans run)
  · cases delivered.symm.trans run
    exact inv.deliver rsp
  · cases quiet.symm.trans run
    exact inv

/-- Settles O12: the pins to come are no part of the invariant, so a step keeps it as its edge does. -/
theorem stepKeepsInvariant : Obligations.StepKeepsInvariant := by
  intro s t inv run
  rcases step_cases s with ⟨_, idle⟩ | ⟨p, rest, _, edge⟩
  · cases idle.symm.trans run
    exact inv
  · have inv' : Inv { s with pins := rest } := inv.of_fields rfl rfl rfl rfl
    exact clockEdge_keeps_inv inv' (edge.symm.trans run)

/-- Settles O13: the port is empty and `ERR` is 0. -/
theorem resetMeetsInvariant : Obligations.ResetMeetsInvariant :=
  ⟨.inl rfl, fun _ h => (nomatch h), fun _ h => (nomatch h)⟩

/-! ### Every state has a next one -/

theorem clockEdge_answers_next (p : Pins) (s : State) : ∃ t, clockEdge p s = .next t := by
  rcases clockEdge_cases p s with ⟨_, h⟩ | ⟨_, _, _, h⟩ | ⟨_, _, _, _, h⟩ | ⟨_, h⟩
  · exact ⟨_, h⟩
  · obtain ⟨t, run, _⟩ := runCommand_accepts p.cmdWord p.cmdData s
    exact ⟨t, h.trans run⟩
  · exact ⟨_, h⟩
  · exact ⟨_, h⟩

/-- Settles O11: no edge stops the machine. -/
theorem everyStepAnswersNext : Obligations.EveryStepAnswersNext := by
  intro s
  rcases step_cases s with ⟨_, idle⟩ | ⟨p, rest, _, edge⟩
  · exact ⟨s, idle⟩
  · rw [edge]
    exact clockEdge_answers_next p _

/-! ### Faults and hangs -/

/-- Settles O17: each end of a command has status 0 or is a fault of the kind of command that raises it. -/
theorem onlyDividesAndConversionsFault : Obligations.OnlyDividesAndConversionsFault := by
  intro i s t r run rsp
  have ends := exec_commandEnd i s
  rw [run] at ends
  cases ends with
  | done u => cases rsp; exact .inl rfl
  | answered u d => cases rsp; exact .inl rfl
  | raised u c drawn origin =>
    cases rsp
    rcases origin with ⟨rfl, div⟩ | ⟨rfl, conv⟩
    · exact .inr (.inl ⟨rfl, div⟩)
    · exact .inr (.inr ⟨rfl, conv⟩)
  | hung u => cases rsp

/-- Drawing a free value is no change of `ERR`. -/
theorem err_of_drawn (h : u = s ∨ u = s.drawn) : u.err = s.err := by
  rcases h with rfl | rfl <;> rfl

/-- Settles O18: the fault procedure alone writes `ERR`, and only where it is 0. -/
theorem firstFaultIsSticky : Obligations.FirstFaultIsSticky := by
  intro i s t notClear run
  have ends := exec_commandEnd i s
  rw [run] at ends
  cases ends with
  | done u err => exact ⟨fun _ => err notClear, fun _ => err notClear⟩
  | answered u d drawn | hung u drawn =>
    have same : u.err = s.err := err_of_drawn drawn
    exact ⟨fun _ => same, fun _ => same⟩
  | raised u c drawn =>
    refine ⟨fun recorded => ?_, fun faultless => absurd (faultless _ rfl) c.code_ne_zero⟩
    rw [State.raise_err, err_of_drawn drawn, if_neg recorded]

/-- Settles O22: the end without a response is the hang, which writes nothing. -/
theorem onlyNormalizingCommandsHang : Obligations.OnlyNormalizingCommandsHang := by
  intro i s t run silent
  have ends := exec_commandEnd i s
  rw [run] at ends
  cases ends with
  | done u | answered u d | raised u c => cases silent
  | hung u drawn hangs =>
    have hung := hang_hung u
    rcases drawn with rfl | rfl
    · exact ⟨hangs, hung.regs, hung.err, hung.busy⟩
    · exact ⟨hangs, hung.regs.of_drawn, hung.err, hung.busy⟩

end Sys2Proof.Machine
end

section
/-! The step and the port over many edges (20_memory.md R51 to R55, 70_reset_and_hazards.md R300): what an edge runs, reset,
a hang, and the host that issues commands one at a time. -/

namespace Sys2Proof.Machine

variable {s t : State} {p : Pins} {rest : List Pins}

theorem step_of_no_pins (h : s.pins = []) : step s = .next s := by
  simp [step, nextEdge, h]

/-! ### What a step runs -/

theorem runCommand_of_ok {w : CmdWord} {d : CmdData} {i : Instr} (h : decode w d = .ok i) (s : State) :
    runCommand w d s = exec i s := by
  simp [runCommand, h]

/-- An idle block runs the command that the coming edge offers. -/
theorem step_of_accept (pins : s.pins = p :: rest) (rst : p.rst = false) (idle : s.busy = false)
    (valid : p.cmdValid = true) : step s = runCommand p.cmdWord p.cmdData { s with pins := rest } :=
  (step_of_pins pins).trans (clockEdge_of_accept ((State.cmdReady_iff _ p).mpr ⟨idle, rst⟩) valid)

theorem decode_of_decodeTableWord {nbits w : Nat} {i : Instr} (h : decodeTableWord nbits w = some i) :
    decode (commandOfBits nbits w).1 (commandOfBits nbits w).2 = .ok i := by
  unfold decodeTableWord at h
  split at h
  · cases h
    assumption
  · cases h

/-- Settles O7: the accepting edge for every word, then for the one `withFetchWord` places, then no edge at all. -/
theorem stepRunsDecodedInstruction : Obligations.StepRunsDecodedInstruction := by
  refine ⟨?accepted, ?placed, fun s => step_of_no_pins⟩
  case accepted =>
    intro s p rest pins rst idle valid
    have run := step_of_accept pins rst idle valid
    refine ⟨run, fun i legal => run.trans (runCommand_of_ok legal _), fun why illegal => ?_⟩
    exact ⟨_, run.trans (runCommand_of_illegal illegal _), raise_raised _ .illegalCommand⟩
  case placed =>
    intro s nbits w i decoded
    have run : step (s.withFetchWord nbits w) = _ := step_of_accept (State.offer_pins ..) rfl rfl rfl
    exact run.trans (runCommand_of_ok (decode_of_decodeTableWord decoded) _)

/-! ### Reset -/

theorem clockEdge_of_reset (rst : p.rst = true) : clockEdge p s = .next s.resetBlock := by
  simp [clockEdge, rst]

/-- Settles O8: the edge with reset is `resetBlock`, whatever stands at the port. -/
theorem resetAtAnyEdge : Obligations.ResetAtAnyEdge := by
  intro s p rest pins rst
  have unready : s.cmdReady p = false := by simp [State.cmdReady, rst]
  have invalid : s.rspValid p = false := by simp [State.rspValid, rst]
  refine ⟨unready, invalid, _, (step_of_pins pins).trans (clockEdge_of_reset rst),
    fun i => ⟨State.resetBlock_xr _ i, State.resetBlock_mr _ i⟩, rfl, ⟨rfl, rfl⟩, rfl, fun q running => ?_⟩
  exact (State.cmdReady_iff _ q).mpr ⟨rfl, running⟩

/-! ### A hang -/

/-- One step of a hung block consumes the coming edge and leaves everything else. -/
theorem step_of_hanging (hanging : Hanging s) (running : ∀ p ∈ s.pins.take 1, p.rst = false) :
    step s = .next { s with pins := s.pins.drop 1 } := by
  cases pins : s.pins with
  | nil =>
    rw [step_of_no_pins pins, List.drop_nil, ← pins]
  | cons p rest =>
    have rst : p.rst = false := running p (by simp [pins])
    exact (step_of_pins pins).trans (clockEdge_of_quiet rst hanging.rsp (.inl hanging.busy))

/-- Settles O15, by the number of edges: the block is as hung after one edge as before it. -/
theorem hangLastsUntilReset : Obligations.HangLastsUntilReset := by
  intro k
  induction k with
  | zero => exact fun _ _ _ => rfl
  | succ k ih =>
    intro s hanging running
    have first : ∀ p ∈ s.pins.take 1, p.rst = false := fun p h =>
      running p (List.take_subset_take_left _ (Nat.le_add_left 1 k) h)
    have later : ∀ p ∈ (s.pins.drop 1).take k, p.rst = false := fun p h =>
      running p (List.mem_of_mem_drop (i := 1) (by rwa [List.drop_take]))
    rw [run_next core k s _ (step_of_hanging hanging first),
      ih { s with pins := s.pins.drop 1 } ⟨hanging.busy, hanging.rsp⟩ later]
    simp

/-! ### The transaction-level view -/

/-- An accepted command leaves the pins to come. -/
theorem runCommand_keeps_pins {w : CmdWord} {d : CmdData} (run : runCommand w d s = .next t) : t.pins = s.pins := by
  have same : runCommand w d s = withPins s.pins (runCommand w d s) := runCommand_pins w d s s.pins
  rw [run] at same
  have unchanged : t = { t with pins := s.pins } := Host.Outcome.next.inj same
  exact (congrArg State.pins unchanged).trans rfl

/-- With other pins to come, an accepted command does the same. -/
theorem runCommand_with_pins {w : CmdWord} {d : CmdData} (run : runCommand w d s = .next t) (q : List Pins) :
    runCommand w d { s with pins := q } = .next { t with pins := q } := by
  rw [runCommand_pins, run]
  rfl

theorem hostRun_cons (c : CmdWord × CmdData) (cmds : List (CmdWord × CmdData)) :
    hostRun (c :: cmds) = commandPins c.1 c.2 :: takePins :: hostRun cmds := rfl

theorem length_hostRun (cmds : List (CmdWord × CmdData)) : (hostRun cmds).length = 2 * cmds.length := by
  induction cmds with
  | nil => rfl
  | cons c cmds ih =>
    rw [hostRun_cons, List.length_cons, List.length_cons, List.length_cons, ih]
    omega

/-- This host does not reset the block. -/
theorem rst_of_mem_hostRun {cmds : List (CmdWord × CmdData)} (h : p ∈ hostRun cmds) : p.rst = false := by
  obtain ⟨c, _, mem⟩ := List.mem_flatMap.mp h
  rcases List.mem_pair.mp mem with rfl | rfl <;> rfl

/-- The rest of a run whose command hangs: the host's other pins go by. -/
theorem run_of_hanging (hanging : Hanging t) (none_left : t.pins = []) (cmds : List (CmdWord × CmdData)) :
    Host.Core.run core (2 * cmds.length + 1) ({ t with pins := takePins :: hostRun cmds } : State) = .next t := by
  have running : ∀ p ∈ takePins :: hostRun cmds, p.rst = false := by
    intro p h
    rcases List.mem_cons.mp h with rfl | h
    · rfl
    · exact rst_of_mem_hostRun h
  have lasts := hangLastsUntilReset (2 * cmds.length + 1) { t with pins := takePins :: hostRun cmds }
    ⟨hanging.busy, hanging.rsp⟩ fun p h => running p (List.mem_of_mem_take h)
  rw [lasts, List.drop_of_length_le (by rw [List.length_cons, length_hostRun]), ← none_left]

/-- The two edges of a command that is answered: its acceptance and the delivery of its response. -/
theorem run_of_answered {c : CmdWord × CmdData} {r : Response} {q : List Pins} (k : Nat) (idle : Idle s)
    (pins : s.pins = commandPins c.1 c.2 :: takePins :: q) (run : runCommand c.1 c.2 { s with pins := [] } = .next t)
    (busy : t.busy = true) (rsp : t.rsp = some r) :
    Host.Core.run core (k + 2) s = Host.Core.run core k ({ t.deliver r with pins := q } : State) := by
  have accept : step s = .next { t with pins := takePins :: q } :=
    (step_of_accept pins rfl idle.busy rfl).trans (runCommand_with_pins run _)
  have deliver : step { t with pins := takePins :: q } = .next { t.deliver r with pins := q } :=
    (step_of_pins rfl).trans (clockEdge_of_response (s := { t with pins := q }) rfl busy rsp)
  exact (run_next core (k + 1) s _ accept).trans (run_next core k { t with pins := takePins :: q } _ deliver)

/-- Settles O14, by the list of commands: a command is answered, and the rest runs from the state after it, or it hangs. -/
theorem oneResponsePerCommand : Obligations.OneResponsePerCommand := by
  intro cmds
  induction cmds with
  | nil =>
    intro s idle (pins : s.pins = [])
    refine ⟨[], s, ?_, rfl, (List.append_nil _).symm, .inl ⟨idle, rfl⟩⟩
    rw [← pins]
    exact .done s
  | cons c cmds ih =>
    intro s idle pins
    obtain ⟨t, run, busy, received⟩ := runCommand_accepts c.1 c.2 { s with pins := [] }
    have noPins : t.pins = [] := runCommand_keeps_pins run
    cases rsp : t.rsp with
    | some r =>
      obtain ⟨rs, u, more, rest, taken, ends⟩ := ih { t.deliver r with pins := hostRun cmds } ⟨rfl, rfl⟩ rfl
      have same : ({ t.deliver r with pins := [] } : State) = t.deliver r := by rw [← noPins]; rfl
      refine ⟨r :: rs, u, .answered c cmds _ t u r rs run rsp (same ▸ more), ?_, ?_, ?_⟩
      · exact (run_of_answered _ idle pins run busy rsp).trans rest
      · simpa [received] using taken
      · simpa using ends
    | none =>
      have hanging : Hanging t := ⟨busy, rsp⟩
      have accept : step s = .next { t with pins := takePins :: hostRun cmds } :=
        (step_of_accept pins rfl idle.busy rfl).trans (runCommand_with_pins run _)
      refine ⟨[], t, .hung c cmds _ t run rsp, ?_, ?_, .inr ⟨hanging, Nat.succ_pos _⟩⟩
      · exact (run_next core _ s _ accept).trans (run_of_hanging hanging noPins cmds)
      · rw [received, List.append_nil]

end Sys2Proof.Machine
end

section
/-! Which parts of the state a command reads and writes (10_state.md R23, R25, 60_exceptions.md R278): what it does on two
states that differ in `ERR` alone, in the upper limbs alone, or in the mantissas alone. -/

namespace Sys2Proof.Machine

/-! ### `ERR` (R278) -/

/-- Both outcomes are next states, which differ in `ERR` at most. -/
def EqButErr (r r' : Result) : Prop := ∃ t u, r = .next t ∧ r' = .next u ∧ { u with err := t.err } = t

section
variable {n : Nat} (s : State) (e : BitVec 3)

theorem finishX_eqButErr (rd : Reg) (v : U256) :
    EqButErr (s.finishX rd v) (({ s with err := e } : State).finishX rd v) := ⟨_, _, rfl, rfl, rfl⟩

theorem raise_eqButErr (c : FaultCode) :
    EqButErr (.next (s.raise c)) (.next (({ s with err := e } : State).raise c)) := ⟨_, _, rfl, rfl, rfl⟩

theorem respond_eqButErr (c : BitVec 3) (d : BitVec 64) :
    EqButErr (.next (s.respond c d)) (.next (({ s with err := e } : State).respond c d)) := ⟨_, _, rfl, rfl, rfl⟩

theorem finishSd_eqButErr (rd : Reg) (v : Option (ScaledDec n)) :
    EqButErr (.next (s.finishSd rd v)) (.next (({ s with err := e } : State).finishSd rd v)) := by
  cases v with
  | some w => exact ⟨_, _, rfl, rfl, rfl⟩
  | none => exact ⟨_, _, rfl, rfl, rfl⟩

/-- The zero test does not read `ERR`. -/
theorem zeroTest_err (a : F64) :
    ({ s with err := e } : State).zeroTest a = ((s.zeroTest a).1, { (s.zeroTest a).2 with err := e }) := by
  have fp : ({ s with err := e } : State).fp = s.fp := rfl
  cases h : sign s.fp a <;> simp [State.zeroTest, fp, h, State.drawn]

theorem divideX_eqButErr (rd : Reg) (d v : U256) :
    EqButErr (if d = 0 then .next (s.raise .divisionByZero) else s.finishX rd v)
      (if d = 0 then .next (({ s with err := e } : State).raise .divisionByZero)
        else ({ s with err := e } : State).finishX rd v) := by
  split
  · exact raise_eqButErr s e _
  · exact finishX_eqButErr s e rd v

theorem sdDiv_eqButErr (rd rs1 rs2 : Reg) :
    EqButErr (sdDiv n rd rs1 rs2 s) (sdDiv n rd rs1 rs2 { s with err := e }) := by
  have mr : ({ s with err := e } : State).mr rs2 = s.mr rs2 := rfl
  rw [sdDiv_eq, sdDiv_eq, mr, zeroTest_err s e]
  split
  · exact raise_eqButErr _ e _
  · exact finishSd_eqButErr _ e rd _

theorem sdConvert_eqButErr (limit : Nat) (z : BitVec 64) (f : F64 → BitVec 64) (rs1 : Reg) :
    EqButErr (sdConvert n limit z f rs1 s) (sdConvert n limit z f rs1 { s with err := e }) := by
  have mr : ({ s with err := e } : State).mr rs1 = s.mr rs1 := rfl
  have exp : ({ s with err := e } : State).expW n rs1 = s.expW n rs1 := rfl
  rw [sdConvert_eq, sdConvert_eq, mr, exp, zeroTest_err s e]
  split
  · exact respond_eqButErr _ e _ _
  · split
    · exact raise_eqButErr _ e _
    · exact respond_eqButErr _ e _ _

theorem sdCvtd_eqButErr (rs1 : Reg) : EqButErr (sdCvtd n rs1 s) (sdCvtd n rs1 { s with err := e }) :=
  sdConvert_eqButErr s e cvtdLimit s.fp.zero (fun v => v) rs1

theorem sdCvts_eqButErr (rs1 : Reg) : EqButErr (sdCvts n rs1 s) (sdCvts n rs1 { s with err := e }) :=
  sdConvert_eqButErr s e cvtsLimit 0 (fun v => (s.fp.toF32 v).setWidth 64) rs1

theorem sdCmp_eqButErr (rs1 rs2 : Reg) : EqButErr (sdCmp n rs1 rs2 s) (sdCmp n rs1 rs2 { s with err := e }) := by
  have fp : ({ s with err := e } : State).fp = s.fp := rfl
  have sd : ({ s with err := e } : State).sd n = s.sd n := rfl
  unfold sdCmp
  rw [fp, sd]
  split
  · exact respond_eqButErr _ e _ _
  · exact respond_eqButErr _ e _ _

/-- Every instruction but RDST. -/
theorem exec_eqButErr (i : Instr) (h : i ≠ .rdst) : EqButErr (exec i s) (exec i { s with err := e }) := by
  cases i
  case rdst => exact absurd rfl h
  case nop | ldi | ldl | ldm | clrerr | mov | sd64Neg | sd256Neg => exact ⟨_, _, rfl, rfl, rfl⟩
  case rdl | rdm | ucmp | sd64Real | sd256Real => exact respond_eqButErr s e _ _
  case uadd | usub | uneg | uinc | udec | umul | uand | uor | unot | ushl | ushr | ushli | ushri =>
    exact finishX_eqButErr s e _ _
  case udiv | umod => exact divideX_eqButErr s e _ _ _
  case sd64Norm | sd64Add | sd64Sub | sd64Mul | sd256Norm | sd256Add | sd256Sub | sd256Mul =>
    exact finishSd_eqButErr s e _ _
  case sd64Div | sd256Div => exact sdDiv_eqButErr s e _ _ _
  case sd64Cmp | sd256Cmp => exact sdCmp_eqButErr s e _ _
  case sd64Cvtd | sd256Cvtd => exact sdCvtd_eqButErr s e _
  case sd64Cvts | sd256Cvts => exact sdCvts_eqButErr s e _

end

/-- Settles O19, by the instruction. -/
theorem errBlocksNothing : Obligations.ErrBlocksNothing := by
  intro i s t e h run
  obtain ⟨t', u, run', other, same⟩ := exec_eqButErr s e i h
  cases run'.symm.trans run
  exact ⟨u, other, same⟩

/-! ### The upper limbs (10_state.md R23) -/

/-- The two states differ at most in the upper limbs of the integer parts and in the host's lists. -/
structure AgreeOnLimbD (s u : State) : Prop where
  rsp : u.rsp = s.rsp
  busy : u.busy = s.busy
  err : u.err = s.err
  m : u.m = s.m
  low : ∀ j, limb (u.xr j) 0 = limb (s.xr j) 0
  fpSel : u.fpSel = s.fpSel
  free : u.free = s.free

/-- Both outcomes are next states that agree so. -/
def NextAgreeOnLimbD (r r' : Result) : Prop := ∃ t v, r = .next t ∧ r' = .next v ∧ AgreeOnLimbD t v

namespace AgreeOnLimbD

variable {s u : State} (h : AgreeOnLimbD s u)
include h

theorem fp : u.fp = s.fp := congrArg fpOf h.fpSel

theorem mr (j : Reg) : u.mr j = s.mr j := congrArg (·[j]) h.m

theorem sd (j : Reg) : u.sd 64 j = s.sd 64 j := by
  rw [State.sd_64, State.sd_64, h.mr, h.low]

theorem expW (j : Reg) : u.expW 64 j = s.expW 64 j := congrArg ScaledDec.exp (h.sd j)

theorem drawn : AgreeOnLimbD s.drawn u.drawn := { h with free := congrArg (· + 1) h.free }

theorem respond (c : BitVec 3) (d : BitVec 64) : NextAgreeOnLimbD (.next (s.respond c d)) (.next (u.respond c d)) :=
  ⟨_, _, rfl, rfl, { h with rsp := rfl, busy := rfl }⟩

theorem raise (c : FaultCode) : NextAgreeOnLimbD (.next (s.raise c)) (.next (u.raise c)) := by
  refine ⟨_, _, rfl, rfl, { h with rsp := rfl, busy := rfl, err := ?_ }⟩
  rw [State.raise_err, State.raise_err, h.err]

/-- The same scaled decimal written into the same register. -/
theorem putSd (rd : Reg) (v : ScaledDec 64) :
    NextAgreeOnLimbD (.next (s.putSd rd v).respondOk) (.next (u.putSd rd v).respondOk) := by
  refine ⟨_, _, rfl, rfl, { h with rsp := rfl, busy := rfl, m := ?m, low := fun j => ?low }⟩
  case m => exact congrArg (·.set rd.val v.mant rd.isLt) h.m
  case low =>
    rw [State.respondOk_xr, State.respondOk_xr, State.putSd_xr, State.putSd_xr]
    split
    · rfl
    · exact h.low j

theorem finishSd (rd : Reg) (v : Option (ScaledDec 64)) :
    NextAgreeOnLimbD (.next (s.finishSd rd v)) (.next (u.finishSd rd v)) := by
  cases v with
  | some w => exact h.putSd rd w
  | none => exact ⟨_, _, rfl, rfl, { h with rsp := rfl, busy := rfl }⟩

/-- The zero test goes the same way in both. -/
theorem zeroTest (a : F64) :
    (u.zeroTest a).1 = (s.zeroTest a).1 ∧ AgreeOnLimbD (s.zeroTest a).2 (u.zeroTest a).2 := by
  unfold State.zeroTest
  rw [h.fp, h.free]
  cases sign s.fp a with
  | some g => exact ⟨rfl, h⟩
  | none => exact ⟨rfl, h.drawn⟩

theorem sdDiv (rd rs1 rs2 : Reg) : NextAgreeOnLimbD (sdDiv 64 rd rs1 rs2 s) (sdDiv 64 rd rs1 rs2 u) := by
  obtain ⟨same, agree⟩ := h.zeroTest (s.mr rs2)
  rw [sdDiv_eq, sdDiv_eq, h.mr, h.fp, h.sd, h.sd, same]
  split
  · exact agree.raise _
  · exact agree.finishSd rd _

theorem sdConvert (limit : Nat) (z : BitVec 64) (f : F64 → BitVec 64) (rs1 : Reg) :
    NextAgreeOnLimbD (sdConvert 64 limit z f rs1 s) (sdConvert 64 limit z f rs1 u) := by
  obtain ⟨same, agree⟩ := h.zeroTest (s.mr rs1)
  rw [sdConvert_eq, sdConvert_eq, h.mr, h.fp, h.sd, h.expW, same]
  split
  · exact agree.respond _ _
  · split
    · exact agree.raise _
    · exact agree.respond _ _

theorem sdCmp (rs1 rs2 : Reg) : NextAgreeOnLimbD (sdCmp 64 rs1 rs2 s) (sdCmp 64 rs1 rs2 u) := by
  unfold Machine.sdCmp
  rw [h.fp, h.sd, h.sd, h.free]
  split
  · exact h.respond _ _
  · exact h.drawn.respond _ _

end AgreeOnLimbD

/-- Every SD64 command does the same on two states that agree but for the upper limbs. -/
theorem exec_agreeOnLimbD {s u : State} (h : AgreeOnLimbD s u) {i : Instr} (sd64 : isSd64 i = true) :
    NextAgreeOnLimbD (exec i s) (exec i u) := by
  cases i
  case sd64Norm rd rs1 =>
    simp only [exec, execSd64Norm, sdNorm, h.fp, h.sd]
    exact h.finishSd _ _
  case sd64Add rd rs1 rs2 =>
    simp only [exec, execSd64Add, sdAdd, h.fp, h.sd]
    exact h.finishSd _ _
  case sd64Sub rd rs1 rs2 =>
    simp only [exec, execSd64Sub, sdSub, h.fp, h.sd]
    exact h.finishSd _ _
  case sd64Neg rd rs1 =>
    simp only [exec, execSd64Neg, sdNeg, h.fp, h.sd]
    exact h.putSd _ _
  case sd64Mul rd rs1 rs2 =>
    simp only [exec, execSd64Mul, sdMul, h.fp, h.sd]
    exact h.finishSd _ _
  case sd64Div rd rs1 rs2 => exact h.sdDiv rd rs1 rs2
  case sd64Cmp rs1 rs2 => exact h.sdCmp rs1 rs2
  case sd64Real rs1 =>
    simp only [exec, execSd64Real, sdReal, h.fp, h.sd]
    exact h.respond _ _
  case sd64Cvtd rs1 =>
    simp only [exec, execSd64Cvtd, sdCvtd, h.fp]
    exact h.sdConvert _ _ _ rs1
  case sd64Cvts rs1 =>
    simp only [exec, execSd64Cvts, sdCvts, h.fp]
    exact h.sdConvert _ _ _ rs1
  all_goals cases sd64

/-- Settles O20, by the command. -/
theorem sd64IgnoresUpperLimbs : Obligations.Sd64IgnoresUpperLimbs := by
  intro i s t y sd64 low run
  have agree : AgreeOnLimbD s { s with x := y } := ⟨rfl, rfl, rfl, rfl, low, rfl, rfl⟩
  obtain ⟨t', v, run', other, same⟩ := exec_agreeOnLimbD agree sd64
  cases run'.symm.trans run
  exact ⟨v, other, same.rsp, same.busy, same.err, same.m, same.low⟩

/-! ### The mantissas, and the registers of a command without a destination (10_state.md R25) -/

/-- The command neither writes a mantissa nor reads one. -/
def IgnoresMantissas (run : State → Result) : Prop :=
  ∀ s, ∃ t, run s = .next t ∧ t.m = s.m ∧ ∀ v : Vector F64 8, run { s with m := v } = .next { t with m := v }

theorem finishX_ignoresMantissas (rd : Reg) (f : State → U256) (reads : ∀ s v, f { s with m := v } = f s) :
    IgnoresMantissas fun s => s.finishX rd (f s) :=
  fun s => ⟨_, rfl, rfl, fun v => congrArg (({ s with m := v } : State).finishX rd) (reads s v)⟩

theorem divideX_ignoresMantissas (rd rs1 rs2 : Reg) (f : U256 → U256 → U256) :
    IgnoresMantissas fun s =>
      if s.xr rs2 = 0 then .next (s.raise .divisionByZero) else s.finishX rd (f (s.xr rs1) (s.xr rs2)) := by
  intro s
  have xr (v : Vector F64 8) (j : Reg) : ({ s with m := v } : State).xr j = s.xr j := rfl
  simp only [xr]
  split
  · exact ⟨_, rfl, rfl, fun _ => rfl⟩
  · exact ⟨_, rfl, rfl, fun _ => rfl⟩

/-- Every U256 command. -/
theorem exec_ignoresMantissas {i : Instr} (u256 : isU256 i = true) : IgnoresMantissas (exec i) := by
  cases i
  case uadd | usub | uneg | uinc | udec | umul | uand | uor | unot | ushl | ushr | ushli | ushri =>
    exact finishX_ignoresMantissas _ _ fun _ _ => rfl
  case udiv => exact divideX_ignoresMantissas _ _ _ _
  case umod => exact divideX_ignoresMantissas _ _ _ _
  case ucmp => exact fun _ => ⟨_, rfl, rfl, fun _ => rfl⟩
  all_goals cases u256

section
variable {n : Nat} {s t u : State}

theorem sameRegs_of_drawn (h : u = s ∨ u = s.drawn) : SameRegs s u := by
  rcases h with rfl | rfl <;> exact ⟨fun _ => rfl, fun _ => rfl⟩

theorem sdCmp_sameRegs {rs1 rs2 : Reg} (run : sdCmp n rs1 rs2 s = .next t) : SameRegs s t := by
  rcases sdCmp_cases n rs1 rs2 s with ⟨_, _, h⟩ | ⟨_, h⟩ <;> cases h.symm.trans run <;>
    exact ⟨fun _ => rfl, fun _ => rfl⟩

theorem sdConvert_sameRegs {limit : Nat} {z : BitVec 64} {f : F64 → BitVec 64} {rs1 : Reg}
    (run : sdConvert n limit z f rs1 s = .next t) : SameRegs s t := by
  obtain ⟨u, drawn, h⟩ := sdConvert_cases n limit z f rs1 s
  have regs := sameRegs_of_drawn drawn
  rcases h with h | h | h <;> cases h.symm.trans run <;> exact ⟨regs.xr, regs.mr⟩

theorem sdCvtd_sameRegs {rs1 : Reg} (run : sdCvtd n rs1 s = .next t) : SameRegs s t := sdConvert_sameRegs run

theorem sdCvts_sameRegs {rs1 : Reg} (run : sdCvts n rs1 s = .next t) : SameRegs s t := sdConvert_sameRegs run

/-- Every command without a destination. -/
theorem exec_sameRegs {i : Instr} (noDestination : hasNoDestination i = true) (run : exec i s = .next t) :
    SameRegs s t := by
  cases i
  case nop | rdst | clrerr | rdl | rdm | ucmp | sd64Real | sd256Real =>
    cases run
    exact ⟨fun _ => rfl, fun _ => rfl⟩
  case sd64Cmp | sd256Cmp => exact sdCmp_sameRegs run
  case sd64Cvtd | sd256Cvtd => exact sdCvtd_sameRegs run
  case sd64Cvts | sd256Cvts => exact sdCvts_sameRegs run
  all_goals cases noDestination

end

/-- Settles O21: the mantissas of the U256 commands, the registers of those without a destination. -/
theorem commandsTouchTheirParts : Obligations.CommandsTouchTheirParts := by
  refine ⟨fun i s t u256 run => ?_, fun i s t => exec_sameRegs⟩
  obtain ⟨t', run', unwritten, unread⟩ := exec_ignoresMantissas u256 s
  cases run'.symm.trans run
  exact ⟨unwritten, unread⟩

end Sys2Proof.Machine
end

section
/-! The laws of the U256 engine (41_u256_addsub_logic.md R130, 42_u256_muldiv.md R157), the schoolbook multiplier (R150), the
reference divider (R156), and the relations read off a comparison (30_encoding.md R80). -/

namespace Sys2Proof.Machine

/-! ### Add and subtract (R130) -/

theorem neg256_eq_neg (v : U256) : neg256 v = -v := neg256_eq_ofNat v

/-- The carry of an addition is read off a comparison of the sum with an operand: a sum that wraps is below it. -/
theorem cmp256_add256_eq_lt_iff (a b : U256) : cmp256 (add256 a b) a = .lt ↔ 2 ^ 256 ≤ a.toNat + b.toNat := by
  have ha : a.toNat < 2 ^ 256 := a.isLt
  have hb : b.toNat < 2 ^ 256 := b.isLt
  rw [cmp256_eq_compare, Nat.compare_eq_lt, toNat_add256]
  omega

/-- Settles O33: the laws are those of words, the carry `cmp256_add256_eq_lt_iff`. -/
theorem addSubLaws : Obligations.AddSubLaws := by
  refine ⟨fun a b => ⟨?negate, BitVec.add_comm a b, BitVec.add_zero a, BitVec.add_sub_cancel a b,
    (cmp256_add256_eq_lt_iff a b).symm⟩, fun a b c => BitVec.add_assoc a b c⟩
  case negate =>
    rw [neg256_eq_neg]
    exact BitVec.sub_eq_add_neg a b

/-! ### The relations (R80) -/

/-- The six relations, read off the data of a comparison of naturals. -/
theorem readFrom_orderingData_compare (m n : Nat) :
    (Relation.lt.readFrom (orderingData (compare m n)) = true ↔ m < n) ∧
      (Relation.le.readFrom (orderingData (compare m n)) = true ↔ m ≤ n) ∧
      (Relation.gt.readFrom (orderingData (compare m n)) = true ↔ n < m) ∧
      (Relation.ge.readFrom (orderingData (compare m n)) = true ↔ n ≤ m) ∧
      (Relation.eq.readFrom (orderingData (compare m n)) = true ↔ m = n) ∧
      (Relation.ne.readFrom (orderingData (compare m n)) = true ↔ m ≠ n) := by
  rcases Nat.lt_trichotomy m n with lt | rfl | gt
  · rw [Nat.compare_eq_lt.mpr lt]
    simp [Relation.readFrom, orderingData, lt, lt.ne, lt.le, lt.not_gt]
  · rw [Nat.compare_eq_eq.mpr rfl]
    simp [Relation.readFrom, orderingData]
  · rw [Nat.compare_eq_gt.mpr gt]
    simp [Relation.readFrom, orderingData, gt, gt.ne', gt.le, gt.not_gt]

/-- Settles O60: U.CMP answers the data of the comparison of the two values. -/
theorem relationsReadOffUCmp : Obligations.RelationsReadOffUCmp := by
  intro s rs1 rs2
  have relations := readFrom_orderingData_compare (s.xr rs1).toNat (s.xr rs2).toNat
  rw [← cmp256_eq_compare] at relations
  exact ⟨_, _, rfl, rfl, relations⟩

/-! ### The schoolbook multiplier (R150) -/

/-- The value after one limb is replaced: the old limb out, the new one in. -/
theorem toNat_withLimb (v : U256) (k : LimbIx) (w : Limb) :
    (withLimb v k w).toNat + 2 ^ (64 * k.val) * (limb v k).toNat = v.toNat + 2 ^ (64 * k.val) * w.toNat := by
  rw [toNat_eq_limbs (withLimb v k w), toNat_eq_limbs v]
  simp only [limb_withLimb]
  fin_cases k <;> simp <;> omega

/-- One partial product: accumulator and carry together grow by the product of the two limbs, at its weight. -/
theorem mulLimb_sum (a b r : U256) {i j : Nat} (c : Nat) (h : i + j < 4) :
    (mulLimb a b i (r, c) j).1.toNat + 2 ^ (64 * (i + j + 1)) * (mulLimb a b i (r, c) j).2 =
      r.toNat + 2 ^ (64 * (i + j)) * ((limbAt a i).toNat * (limbAt b j).toNat + c) := by
  have place : (Fin.ofNat 4 (i + j)).val = i + j := Nat.mod_eq_of_lt h
  have replaced := toNat_withLimb r (Fin.ofNat 4 (i + j))
    (BitVec.ofNat 64 ((limbAt r (i + j)).toNat + (limbAt a i).toNat * (limbAt b j).toNat + c))
  rw [limb, place, BitVec.toNat_ofNat] at replaced
  simp only [mulLimb]
  generalize (limbAt r (i + j)).toNat = l at *
  generalize (limbAt a i).toNat * (limbAt b j).toNat = p at *
  rw [Nat.mul_succ, Nat.pow_add, Nat.mul_assoc]
  generalize 2 ^ (64 * (i + j)) = weight at *
  have parts : weight * l + weight * (p + c) =
      weight * ((l + p + c) % 2 ^ 64) + weight * (2 ^ 64 * ((l + p + c) / 2 ^ 64)) := by
    rw [← Nat.mul_add, ← Nat.mul_add, Nat.mod_add_div, Nat.add_assoc]
  omega

/-- The first `m` partial products of a row: limb `i` of `a` times the `m` lowest limbs of `b`, at the weight of limb `i`. -/
theorem foldl_mulLimb_sum (a b r : U256) {i m : Nat} (h : i + m ≤ 4) :
    ((List.range m).foldl (mulLimb a b i) (r, 0)).1.toNat +
        2 ^ (64 * (i + m)) * ((List.range m).foldl (mulLimb a b i) (r, 0)).2 =
      r.toNat + 2 ^ (64 * i) * ((limbAt a i).toNat * (b.toNat % 2 ^ (64 * m))) := by
  induction m with
  | zero => simp [Nat.mod_one]
  | succ m ih =>
    have before := ih (by omega)
    rw [List.range_succ, List.foldl_append, List.foldl_cons, List.foldl_nil]
    generalize (List.range m).foldl (mulLimb a b i) (r, 0) = acc at *
    have step := mulLimb_sum a b acc.1 acc.2 (show i + m < 4 by omega)
    rw [← Nat.add_assoc, step, Nat.mul_add, toNat_mod_limbs_succ]
    have weight : 2 ^ (64 * (i + m)) = 2 ^ (64 * i) * 2 ^ (64 * m) := by rw [← Nat.pow_add, Nat.mul_add]
    rw [weight] at before ⊢
    linarith [before]

/-- A row adds limb `i` of `a` times `b`, at its weight; what is above limb 3 is discarded. -/
theorem mulRow_eq (a b r : U256) {i : Nat} (h : i ≤ 4) :
    (mulRow a b r i).toNat = (r.toNat + 2 ^ (64 * i) * (limbAt a i).toNat * b.toNat) % 2 ^ 256 := by
  have sum := foldl_mulLimb_sum a b r (show i + (4 - i) ≤ 4 by omega)
  rw [Nat.add_sub_cancel' h] at sum
  have width : 2 ^ (64 * i) * 2 ^ (64 * (4 - i)) = 2 ^ 256 := by
    rw [← Nat.pow_add]
    congr 1
    omega
  have discarded : 2 ^ (64 * i) * ((limbAt a i).toNat * (b.toNat % 2 ^ (64 * (4 - i)))) ≡
      2 ^ (64 * i) * ((limbAt a i).toNat * b.toNat) [MOD 2 ^ 256] :=
    width ▸ ((Nat.mod_modEq _ _).mul_left _).mul_left' _
  calc (mulRow a b r i).toNat = _ := (Nat.mod_eq_of_lt (BitVec.isLt _)).symm
    _ = _ := (Nat.add_mul_mod_self_left _ _ _).symm
    _ = _ := congrArg (· % 2 ^ 256) sum
    _ = _ := discarded.add_left _
    _ = _ := by rw [Nat.mul_assoc]

/-- The first `k` rows are the `k` lowest limbs of `a` times `b`. -/
theorem foldl_mulRow (a b : U256) {k : Nat} (h : k ≤ 4) :
    ((List.range k).foldl (mulRow a b) 0).toNat = a.toNat % 2 ^ (64 * k) * b.toNat % 2 ^ 256 := by
  induction k with
  | zero => simp [Nat.mod_one]
  | succ k ih =>
    rw [List.range_succ, List.foldl_append, List.foldl_cons, List.foldl_nil, mulRow_eq a b _ (by omega),
      ih (by omega), Nat.mod_add_mod, toNat_mod_limbs_succ, Nat.add_mul]

theorem toNat_mul256 (a b : U256) : (mul256 a b).toNat = a.toNat * b.toNat % 2 ^ 256 := BitVec.toNat_mul a b

/-- Settles O35: all four rows are `a` times `b`. -/
theorem schoolbookIsModular : Obligations.SchoolbookIsModular := by
  refine fun a b => ⟨BitVec.eq_of_toNat_eq ?_, toNat_mul256 a b⟩
  have whole : a.toNat % 2 ^ (64 * 4) = a.toNat := Nat.mod_eq_of_lt a.isLt
  rw [mul256Limbs, foldl_mulRow a b (Nat.le_refl 4), whole, toNat_mul256]

/-! ### The reference divider (R156) -/

/-- The loop for the bits below `i`: `r` and those bits are the dividend still to be divided. -/
theorem divBits_eq (n d : U256) (i q r : Nat) (h : r < d.toNat) :
    divBits n d i q r =
      (q + (r * 2 ^ i + n.toNat % 2 ^ i) / d.toNat, (r * 2 ^ i + n.toNat % 2 ^ i) % d.toNat) := by
  induction i generalizing q r with
  | zero => simp [divBits, Nat.mod_one, Nat.div_eq_of_lt h, Nat.mod_eq_of_lt h]
  | succ i ih =>
    have bit : (n.getLsbD i).toNat = n.toNat / 2 ^ i % 2 := Nat.toNat_testBit n.toNat i
    have rest : r * 2 ^ (i + 1) + n.toNat % 2 ^ (i + 1) = (2 * r + (n.getLsbD i).toNat) * 2 ^ i + n.toNat % 2 ^ i := by
      rw [bit, Nat.pow_succ, Nat.mod_mul]
      ring
    have bound : 2 * r + (n.getLsbD i).toNat < 2 * d.toNat := by
      have small : (n.getLsbD i).toNat ≤ 1 := Bool.toNat_le _
      omega
    rw [rest]
    simp only [divBits]
    generalize 2 * r + (n.getLsbD i).toNat = r', n.toNat % 2 ^ i = low at *
    split
    case isTrue fits =>
      have parts : r' * 2 ^ i + low = (r' - d.toNat) * 2 ^ i + low + d.toNat * 2 ^ i := by
        obtain ⟨k, rfl⟩ := Nat.exists_eq_add_of_le fits
        rw [Nat.add_sub_cancel_left, Nat.add_mul]
        omega
      rw [ih _ _ (by omega), parts, Nat.add_mul_div_left _ _ (by omega), Nat.add_mul_mod_self_left]
      simp only [Prod.mk.injEq, and_true]
      omega
    case isFalse small => rw [ih _ _ (Nat.lt_of_not_le small)]

/-- Settles O37: at the start all bits are still to be divided. -/
theorem referenceDividerIsFloor : Obligations.ReferenceDividerIsFloor := by
  intro n d nonzero
  have positive : 0 < d.toNat := Nat.pos_of_ne_zero fun zero => nonzero (BitVec.eq_of_toNat_eq zero)
  have whole : n.toNat % 2 ^ 256 = n.toNat := Nat.mod_eq_of_lt n.isLt
  rw [divmod256, divBits_eq n d 256 0 0 positive, whole]
  simp

/-! ### Multiply, divide, modulo (R157) -/

/-- A divisor of the product gives the factor back, where the product does not wrap. -/
theorem div256_mul256 {x d : U256} (nonzero : d ≠ 0) (fits : x.toNat * d.toNat < 2 ^ 256) :
    div256 (mul256 x d) d = x := by
  have positive : 0 < d.toNat := Nat.pos_of_ne_zero fun zero => nonzero (BitVec.eq_of_toNat_eq zero)
  apply BitVec.eq_of_toNat_eq
  rw [toNat_div256, toNat_mul256, Nat.mod_eq_of_lt fits, Nat.mul_div_cancel _ positive]

/-- A power of two below 2^256 is a word of its own value. -/
theorem toNat_ofNat_two_pow {k : Nat} (h : k < 256) : (BitVec.ofNat 256 (2 ^ k)).toNat = 2 ^ k := by
  rw [BitVec.toNat_ofNat, Nat.mod_eq_of_lt (Nat.pow_lt_pow_right (by decide) h)]

theorem mul256_two_pow (a : U256) {k : Nat} (h : k < 256) : mul256 a (BitVec.ofNat 256 (2 ^ k)) = shl256 a k := by
  apply BitVec.eq_of_toNat_eq
  rw [toNat_mul256, toNat_shl256, toNat_ofNat_two_pow h]

theorem div256_two_pow (a : U256) {k : Nat} (h : k < 256) : div256 a (BitVec.ofNat 256 (2 ^ k)) = shr256 a k := by
  apply BitVec.eq_of_toNat_eq
  rw [toNat_div256, toNat_shr256, toNat_ofNat_two_pow h]

/-- No U256 command is a conversion. -/
theorem isConversion_of_isU256 {i : Instr} (u256 : isU256 i = true) : isConversion i = false := by
  cases i
  case sd64Cvtd | sd256Cvtd | sd64Cvts | sd256Cvts => cases u256
  all_goals rfl

/-- Settles O38: the laws of words and naturals, and the one fault of the U256 commands. -/
theorem mulDivLaws : Obligations.MulDivLaws := by
  refine ⟨fun x d => div256_mul256, fun a b c => ⟨BitVec.mul_comm a b, BitVec.mul_assoc a b c, BitVec.mul_add⟩,
    fun a k h => ⟨mul256_two_pow a h, div256_two_pow a h⟩, fun n d _ => ⟨toNat_div256 n d, toNat_mod256 n d⟩, ?fault⟩
  case fault =>
    intro i s t r u256 run rsp fault
    rcases onlyDividesAndConversionsFault i s t r run rsp with ok | div | ⟨_, conv⟩
    · exact absurd ok fault
    · exact div
    · rw [isConversion_of_isU256 u256] at conv
      cases conv

end Sys2Proof.Machine
end

section
/-! The scaled-decimal commands whose zero test or comparison asks for a sign (44_sd_normalize.md R192, R199 (c)): SDW.DIV
(45_sd_arith.md R224), SDW.CVTD, SDW.CVTS and SDW.CMP (46_sd_compare_convert.md R241, R246, R247), with a sign and without. -/

namespace Sys2Proof.Machine

variable {n : Nat} {s : State}

/-- Settles O42: `normalize_eq_some_iff`, whatever the `FP` and the width. -/
theorem normalizeIsThePseudocode : Obligations.NormalizeIsThePseudocode :=
  fun _ _ _ _ => normalize_eq_some_iff

/-! ### The zero test -/

theorem zeroTest_of_sign {a : F64} {g : Sign} (h : sign s.fp a = some g) : s.zeroTest a = (g == .zero, s) := by
  simp [State.zeroTest, h]

theorem zeroTest_of_no_sign {a : F64} (h : sign s.fp a = none) :
    s.zeroTest a = (Config.freeZeroTest s.free, s.drawn) := by
  simp [State.zeroTest, h]

/-! ### SDW.DIV (R224) -/

theorem sub_eq_ofNat (x y : BitVec n) : x - y = BitVec.ofNat n (x.toNat + 2 ^ n - y.toNat) := by
  rw [BitVec.sub_def]
  congr 1
  have bounded : y.toNat < 2 ^ n := y.isLt
  omega

/-- The difference of the exponents is that of their values modulo 2^n, with nothing said of the borrow (R224). -/
theorem divideSd_eq_some_iff {fp : FP} {a b w : ScaledDec n} :
    divideSd fp a b = some w ↔
      NormalizesTo fp ⟨fp.div a.mant b.mant, BitVec.ofNat n (a.exp.toNat + 2 ^ n - b.exp.toNat)⟩ w := by
  rw [divideSd, normalize_eq_some_iff, sub_eq_ofNat]

/-- What SDW.DIV normalizes. -/
def quotientSd (n : Nat) (s : State) (rs1 rs2 : Reg) : ScaledDec n :=
  ⟨s.fp.div (s.mr rs1) (s.mr rs2), BitVec.ofNat n ((s.expW n rs1).toNat + 2 ^ n - (s.expW n rs2).toNat)⟩

theorem quotientSd_256 (s : State) (rs1 rs2 : Reg) :
    quotientSd 256 s rs1 rs2 =
      ⟨s.fp.div (s.mr rs1) (s.mr rs2), BitVec.ofNat 256 ((s.xr rs1).toNat + 2 ^ 256 - (s.xr rs2).toNat)⟩ := by
  rw [quotientSd, State.expW_256, State.expW_256]

theorem sdDiv_of_zero {rd rs1 rs2 : Reg} (zero : s.fp.eq (s.mr rs2) s.fp.zero = true) :
    ∃ t, sdDiv n rd rs1 rs2 s = .next t ∧ Raised s t 1 := by
  rw [sdDiv_eq, zeroTest_of_sign ((sign_eq_zero_iff _ _).mpr zero)]
  exact ⟨_, rfl, raise_raised s .divisionByZero⟩

/-- A divisor that has a sign other than zero: the quotient is normalized. -/
theorem sdDiv_of_nonzero {rd rs1 rs2 : Reg} (nonzero : s.fp.eq (s.mr rs2) s.fp.zero = false)
    (signed : sign s.fp (s.mr rs2) ≠ none) :
    sdDiv n rd rs1 rs2 s = .next (s.finishSd rd (divideSd s.fp (s.sd n rs1) (s.sd n rs2))) := by
  obtain ⟨g, hg⟩ := Option.ne_none_iff_exists'.mp signed
  have notZero : (g == .zero) = false := by
    rw [beq_eq_false_iff_ne]
    rintro rfl
    exact absurd ((sign_eq_zero_iff _ _).mp hg) (Bool.eq_false_iff.mp nonzero)
  rw [sdDiv_eq, zeroTest_of_sign hg, notZero]
  rfl

/-- Settles O51: the zero test goes the way the sign says; the quotient ends as every normalizing command does. -/
theorem divDividesAndSubtracts : Obligations.DivDividesAndSubtracts := by
  refine ⟨fun s rd rs1 rs2 d => ⟨decode_r3 d rd rs1 rs2 rfl, sdDiv_of_zero, fun nonzero signed => ?sd64⟩,
    fun s rd rs1 rs2 d => ⟨decode_r3 d rd rs1 rs2 rfl, sdDiv_of_zero, fun nonzero signed => ?sd256⟩⟩
  case sd64 =>
    exact finishSd_writes_or_hangs s rd (sdDiv_of_nonzero nonzero signed) fun _ => divideSd_eq_some_iff
  case sd256 =>
    rw [← quotientSd_256]
    exact finishSd_writes_or_hangs_256 s rd (sdDiv_of_nonzero nonzero signed) fun _ => divideSd_eq_some_iff

/-! ### SDW.CVTD and SDW.CVTS (R246, R247) -/

/-- A conversion for any width, on the state `u` that its zero test leaves. -/
theorem sdConvert_ends (n : Nat) {limit : Nat} (h : limit ≤ 308) (z : BitVec 64) (f : F64 → BitVec 64) (rs1 : Reg)
    (s : State) {zero : Bool} {u : State} (test : s.zeroTest (s.mr rs1) = (zero, u)) :
    ∃ t, sdConvert n limit z f rs1 s = .next t ∧
      (if zero then OnlyResponded u t 0 z
      else if limit < (s.expW n rs1).toNat then Raised u t 2
      else OnlyResponded u t 0 (f (s.fp.mul (s.mr rs1) (s.fp.pow10 (s.expW n rs1).toNat)))) := by
  rw [sdConvert_eq, test]
  split
  · exact ⟨_, rfl, respond_onlyResponded u 0 z⟩
  · split
    case isTrue => exact ⟨_, rfl, raise_raised u .overflow⟩
    case isFalse within =>
      have computed : (s.xr rs1).toNat % 2 ^ n ≤ 308 := by rw [← toNat_expW]; omega
      rw [realValue_sd, if_pos computed, ← toNat_expW]
      exact ⟨_, rfl, respond_onlyResponded u 0 _⟩

/-- On a source that has a sign. -/
theorem sdConvert_of_sign (n : Nat) {limit : Nat} (h : limit ≤ 308) (z : BitVec 64) (f : F64 → BitVec 64) (rs1 : Reg)
    (s : State) {g : Sign} (hg : sign s.fp (s.mr rs1) = some g) :
    ∃ t, sdConvert n limit z f rs1 s = .next t ∧
      (if g = .zero then OnlyResponded s t 0 z
      else if limit < (s.xr rs1).toNat % 2 ^ n then Raised s t 2
      else OnlyResponded s t 0 (f (s.fp.mul (s.mr rs1) (s.fp.pow10 ((s.xr rs1).toNat % 2 ^ n))))) := by
  simpa only [beq_iff_eq, toNat_expW] using sdConvert_ends n h z f rs1 s (zeroTest_of_sign hg)

/-- The whole integer part is its own value modulo 2^256. -/
theorem toNat_xr_mod (s : State) (i : Reg) : (s.xr i).toNat % 2 ^ 256 = (s.xr i).toNat := Nat.mod_eq_of_lt (s.xr i).isLt

/-- Settles O56: the conversion with boundary 307 and the RealValue as it is. -/
theorem cvtdOverflowsAbove307 : Obligations.CvtdOverflowsAbove307 := by
  refine ⟨fun s rs1 d g hg => ⟨decode_s d rs1 rfl, ?sd64⟩, fun s rs1 d g hg => ⟨decode_s d rs1 rfl, ?sd256⟩⟩
  case sd64 => exact sdConvert_of_sign 64 (limit := 307) (by decide) s.fp.zero (fun v => v) rs1 s hg
  case sd256 =>
    have wide := sdConvert_of_sign 256 (limit := 307) (by decide) s.fp.zero (fun v => v) rs1 s hg
    rw [toNat_xr_mod] at wide
    exact wide

/-- Settles O57: the conversion with boundary 37 and the RealValue narrowed. -/
theorem cvtsOverflowsAbove37 : Obligations.CvtsOverflowsAbove37 := by
  refine ⟨fun s rs1 d g hg => ⟨decode_s d rs1 rfl, ?sd64⟩, fun s rs1 d g hg => ⟨decode_s d rs1 rfl, ?sd256⟩⟩
  case sd64 =>
    rw [BitVec.ofNat_toNat]
    exact sdConvert_of_sign 64 (limit := 37) (by decide) 0 (fun v => (s.fp.toF32 v).setWidth 64) rs1 s hg
  case sd256 =>
    have wide := sdConvert_of_sign 256 (limit := 37) (by decide) 0 (fun v => (s.fp.toF32 v).setWidth 64) rs1 s hg
    rw [toNat_xr_mod] at wide
    rw [BitVec.ofNat_toNat]
    exact wide

/-! ### SDW.CMP (R241) -/

/-- To ask first whether two parts differ and then which is less is to ask for the one order, then for the other. -/
theorem ite_ne_lt {α β : Type} [LinearOrder α] (p q : α) (x y z : β) :
    (if p ≠ q then (if p < q then x else y) else z) = if p < q then x else if q < p then y else z := by
  rcases lt_trichotomy p q with lt | rfl | gt
  · simp [lt, lt.ne]
  · simp
  · simp [gt, gt.ne', gt.not_gt]

/-- The data of a comparison of operands that have signs. -/
theorem orderingData_compareSd {fp : FP} {ma mb : F64} {ea eb : BitVec n} {sa sb : Sign} (ha : sign fp ma = some sa)
    (hb : sign fp mb = some sb) :
    ∃ c, compareSd fp ⟨ma, ea⟩ ⟨mb, eb⟩ = some c ∧
      orderingData c =
        if sa ≠ sb then (if sa.toInt < sb.toInt then 0xFFFFFFFFFFFFFFFF#64 else 1)
        else if sa = .zero then 0
        else if ea.toNat < eb.toNat then 0xFFFFFFFFFFFFFFFF#64
        else if eb.toNat < ea.toNat then 1
        else if fp.lt ma mb then 0xFFFFFFFFFFFFFFFF#64
        else if fp.lt mb ma then 1 else 0 := by
  simp only [compareSd, ha, hb, BitVec.toNat_ne_iff_ne.symm, BitVec.lt_def, ite_ne_lt]
  refine ⟨_, rfl, ?_⟩
  simp only [apply_ite orderingData]
  rfl

/-- SDW.CMP for any width, on operands that have signs. -/
theorem sdCmp_of_signs (n : Nat) (s : State) (rs1 rs2 : Reg) {sa sb : Sign} (ha : sign s.fp (s.mr rs1) = some sa)
    (hb : sign s.fp (s.mr rs2) = some sb) :
    ∃ t, sdCmp n rs1 rs2 s = .next t ∧
      OnlyResponded s t 0
        (if sa ≠ sb then (if sa.toInt < sb.toInt then 0xFFFFFFFFFFFFFFFF#64 else 1)
        else if sa = .zero then 0
        else if (s.xr rs1).toNat % 2 ^ n < (s.xr rs2).toNat % 2 ^ n then 0xFFFFFFFFFFFFFFFF#64
        else if (s.xr rs2).toNat % 2 ^ n < (s.xr rs1).toNat % 2 ^ n then 1
        else if s.fp.lt (s.mr rs1) (s.mr rs2) then 0xFFFFFFFFFFFFFFFF#64
        else if s.fp.lt (s.mr rs2) (s.mr rs1) then 1 else 0) := by
  obtain ⟨c, compared, data⟩ := orderingData_compareSd (ea := s.expW n rs1) (eb := s.expW n rs2) ha hb
  rw [← toNat_expW, ← toNat_expW, ← data, sdCmp, State.sd, State.sd, compared]
  exact ⟨_, rfl, respond_onlyResponded s 0 _⟩

/-- Settles O53: SDW.CMP for any width, at the two widths of the commands. -/
theorem cmpOrdersBySignExponentMantissa : Obligations.CmpOrdersBySignExponentMantissa := by
  refine ⟨fun rs1 rs2 d => ⟨decode_c d rs1 rs2 rfl, decode_c d rs1 rs2 rfl⟩, fun s rs1 rs2 sa sb ha hb => ?sd64,
    fun s rs1 rs2 sa sb ha hb => ?sd256⟩
  case sd64 => exact sdCmp_of_signs 64 s rs1 rs2 ha hb
  case sd256 =>
    have wide := sdCmp_of_signs 256 s rs1 rs2 ha hb
    rw [toNat_xr_mod, toNat_xr_mod] at wide
    exact wide

/-! ### Without a sign (R199 (c), 93_implementation_defined.md U6) -/

theorem compareSd_of_no_sign {fp : FP} {a b : ScaledDec n} (h : sign fp a.mant = none ∨ sign fp b.mant = none) :
    compareSd fp a b = none := by
  unfold compareSd
  rcases h with h | h
  · rw [h]
  · rw [h]
    cases sign fp a.mant <;> rfl

/-- A comparison answers one of the three results. -/
theorem sdCmp_of_no_sign (n : Nat) {rs1 rs2 : Reg} (h : sign s.fp (s.mr rs1) = none ∨ sign s.fp (s.mr rs2) = none) :
    ∃ t c, sdCmp n rs1 rs2 s = .next t ∧ OnlyResponded s.drawn t 0 (orderingData c) := by
  have unordered : compareSd s.fp (s.sd n rs1) (s.sd n rs2) = none := compareSd_of_no_sign h
  refine ⟨_, Config.freeOrdering s.free, ?_, respond_onlyResponded s.drawn 0 _⟩
  rw [sdCmp, unordered]

/-- A conversion answers what one of the two branches of its zero test answers. -/
theorem sdConvert_of_no_sign (n : Nat) {limit : Nat} (h : limit ≤ 308) (z : BitVec 64) (f : F64 → BitVec 64) (rs1 : Reg)
    (unsigned : sign s.fp (s.mr rs1) = none) :
    ∃ t, sdConvert n limit z f rs1 s = .next t ∧
      (OnlyResponded s.drawn t 0 z ∨ (limit < (s.expW n rs1).toNat ∧ Raised s.drawn t 2) ∨
        ((s.expW n rs1).toNat ≤ limit ∧
          OnlyResponded s.drawn t 0 (f (s.fp.mul (s.mr rs1) (s.fp.pow10 (s.expW n rs1).toNat))))) := by
  obtain ⟨t, run, ends⟩ := sdConvert_ends n h z f rs1 s (zeroTest_of_no_sign unsigned)
  refine ⟨t, run, ?_⟩
  split at ends
  · exact .inl ends
  · split at ends
    case isTrue above => exact .inr (.inl ⟨above, ends⟩)
    case isFalse within => exact .inr (.inr ⟨Nat.le_of_not_lt within, ends⟩)

/-- A division raises DivisionByZero or goes on to the quotient, which is written, or never ends. -/
theorem sdDiv_of_no_sign (n : Nat) (rd rs1 rs2 : Reg) (unsigned : sign s.fp (s.mr rs2) = none) :
    ∃ t, sdDiv n rd rs1 rs2 s = .next t ∧
      (Raised s.drawn t 1 ∨
        (∃ w, NormalizesTo s.fp (quotientSd n s rs1 rs2) w ∧ WroteBoth s.drawn t rd (w.exp.setWidth 256) w.mant) ∨
        ((∀ w, ¬ NormalizesTo s.fp (quotientSd n s rs1 rs2) w) ∧ Hung s.drawn t)) := by
  rw [sdDiv_eq, zeroTest_of_no_sign unsigned]
  split
  · exact ⟨_, rfl, .inl (raise_raised s.drawn .divisionByZero)⟩
  · obtain ⟨writes, hangs⟩ := finishSd_writes_or_hangs s.drawn rd rfl fun w =>
      divideSd_eq_some_iff (fp := s.fp) (a := s.sd n rs1) (b := s.sd n rs2) (w := w)
    by_cases ends : ∃ w, NormalizesTo s.fp (quotientSd n s rs1 rs2) w
    · obtain ⟨w, ends⟩ := ends
      obtain ⟨t, run, wrote⟩ := writes w ends
      exact ⟨t, run, .inr (.inl ⟨w, ends, wrote⟩)⟩
    · obtain ⟨t, run, hung⟩ := hangs (not_exists.mp ends)
      exact ⟨t, run, .inr (.inr ⟨not_exists.mp ends, hung⟩)⟩

/-- Settles O58: the three kinds of command, each for any width. -/
theorem unspecifiedSignStillCompletes : Obligations.UnspecifiedSignStillCompletes := by
  refine ⟨fun s rs1 rs2 h => ⟨sdCmp_of_no_sign 64 h, sdCmp_of_no_sign 256 h⟩,
    fun s rs1 h => ⟨?cvtd64, ?cvtd256, ?cvts64, ?cvts256⟩, fun s rd rs1 rs2 h => ⟨?div64, ?div256⟩⟩
  case cvtd64 => exact sdConvert_of_no_sign 64 (limit := 307) (by decide) s.fp.zero (fun v => v) rs1 h
  case cvtd256 =>
    rw [← s.expW_256]
    exact sdConvert_of_no_sign 256 (limit := 307) (by decide) s.fp.zero (fun v => v) rs1 h
  case cvts64 =>
    rw [BitVec.ofNat_toNat]
    exact sdConvert_of_no_sign 64 (limit := 37) (by decide) 0 (fun v => (s.fp.toF32 v).setWidth 64) rs1 h
  case cvts256 =>
    rw [← s.expW_256, BitVec.ofNat_toNat]
    exact sdConvert_of_no_sign 256 (limit := 37) (by decide) 0 (fun v => (s.fp.toF32 v).setWidth 64) rs1 h
  case div64 => exact sdDiv_of_no_sign 64 rd rs1 rs2 h
  case div256 =>
    have wide := sdDiv_of_no_sign 256 rd rs1 rs2 h
    simp only [quotientSd_256, BitVec.setWidth_eq] at wide
    exact wide

end Sys2Proof.Machine
end

section
/-! Pseudo-commands (30_encoding.md R79) as runs of their commands. -/

namespace Sys2Proof.Machine

variable {s t : State}

/-- A command that is answered is delivered, and the rest goes on from there. -/
theorem execAll_cons {i : Instr} {r : Response} (rest : List Instr) (run : exec i s = .next t) (rsp : t.rsp = some r) :
    execAll (i :: rest) s = execAll rest (t.deliver r) := by
  simp [execAll, run, rsp]

/-- A command that hangs is the last. -/
theorem execAll_of_hang {i : Instr} (rest : List Instr) (run : exec i s = .next t) (rsp : t.rsp = none) :
    execAll (i :: rest) s = .next t := by
  simp [execAll, run, rsp]

/-- Four limbs written one after the other are the whole value, whatever stood there. -/
theorem withLimb_four (v : U256) (a b c d : Limb) :
    withLimb (withLimb (withLimb (withLimb v 3 a) 2 b) 1 c) 0 d = ofLimbs a b c d := by
  apply BitVec.eq_of_toNat_eq
  rw [toNat_eq_limbs, toNat_ofLimbs]
  simp [limb_withLimb]

/-- LD256: four writes of the same register, the last of the whole value. -/
theorem execAll_ld256 (s : State) (rd : Reg) (a b c d : Limb) :
    ∃ t, execAll (expand (.ld256 rd a b c d)) s = .next t ∧
      (∀ i, t.xr i = if i = rd then ofLimbs a b c d else s.xr i) ∧ (∀ i, t.mr i = s.mr i) ∧ t.err = s.err ∧ Idle t := by
  refine ⟨_, rfl, fun i => ?_, fun _ => rfl, rfl, ⟨rfl, rfl⟩⟩
  by_cases same : i = rd
  · simp [same, withLimb_four]
  · simp [same]

/-- The two loads with which LDSD and both FROMF begin: `rd` is (mant, e), and nothing else has changed. -/
theorem execAll_two_loads (s : State) (rd : Reg) (mant : F64) (e : CmdData) :
    ∃ t, (∀ rest, execAll (.ldm rd mant :: .ldi rd e :: rest) s = execAll rest t) ∧
      (∀ i, t.xr i = if i = rd then e.setWidth 256 else s.xr i) ∧ (∀ i, t.mr i = if i = rd then mant else s.mr i) ∧
      t.err = s.err ∧ Idle t ∧ t.fp = s.fp :=
  ⟨_, fun _ => rfl, fun i => by simp, fun i => by simp, rfl, ⟨rfl, rfl⟩, rfl⟩

/-- The part of `rd` that the loads wrote is written over by the normalization that follows. -/
theorem ite_ite_same {α : Type} (p : Prop) [Decidable p] (x y z : α) :
    (if p then x else if p then y else z) = if p then x else z := by
  split <;> rfl

/-- SDW.FROMF for any width: the two loads, then SDW.NORM of (f, 0). -/
theorem execAll_fromf (n : Nat) (s : State) (rd : Reg) (f : F64) {norm : Instr}
    (run : ∀ t, exec norm t = sdNorm n rd rd t) :
    (∀ w, NormalizesTo s.fp (⟨f, 0⟩ : ScaledDec n) w →
      ∃ t, execAll [.ldm rd f, .ldi rd 0, norm] s = .next t ∧
        (∀ i, t.xr i = if i = rd then w.exp.setWidth 256 else s.xr i) ∧ (∀ i, t.mr i = if i = rd then w.mant else s.mr i) ∧
        t.err = s.err ∧ Idle t) ∧
    ((∀ w, ¬ NormalizesTo s.fp (⟨f, 0⟩ : ScaledDec n) w) →
      ∃ t, execAll [.ldm rd f, .ldi rd 0, norm] s = .next t ∧
        (∀ i, t.xr i = if i = rd then 0 else s.xr i) ∧ (∀ i, t.mr i = if i = rd then f else s.mr i) ∧
        t.err = s.err ∧ Hanging t) := by
  obtain ⟨u, loads, xr, mr, err, idle, fp⟩ := execAll_two_loads s rd f 0
  have pair : u.sd n rd = ⟨f, 0⟩ := by simp [State.sd, State.expW, xr, mr]
  obtain ⟨writes, hangs⟩ := sdNorm_writes_or_hangs n u rd rd
  rw [pair, fp] at writes hangs
  constructor
  · intro w ends
    obtain ⟨t, ran, wrote⟩ := writes w ends
    refine ⟨t.deliver ⟨0, 0⟩, ?_, fun i => ?_, fun i => ?_, wrote.err.trans err, ⟨rfl, rfl⟩⟩
    · rw [loads, execAll_cons [] ((run u).trans ran) wrote.responds.rsp, execAll]
    · rw [State.deliver_xr, wrote.xr, xr, ite_ite_same]
    · rw [State.deliver_mr, wrote.mr, mr, ite_ite_same]
  · intro never
    obtain ⟨t, ran, hung⟩ := hangs never
    refine ⟨t, ?_, fun i => ?_, fun i => ?_, hung.err.trans err, ⟨hung.busy, hung.rsp⟩⟩
    · rw [loads, execAll_of_hang [] ((run u).trans ran) hung.rsp]
    · rw [hung.regs.xr, xr]
      rfl
    · rw [hung.regs.mr, mr]

/-- Settles O59: LD256; LDSD, which is the two loads; U.CLR; FROMF for any width. -/
theorem pseudoCommandsLoad : Obligations.PseudoCommandsLoad := by
  refine ⟨execAll_ld256, ?ldsd, ?uclr, fun s rd f => execAll_fromf 64 s rd f fun _ => rfl, fun s rd f => ?fromf256⟩
  case ldsd =>
    intro s rd m e
    obtain ⟨t, loads, xr, mr, err, idle, _⟩ := execAll_two_loads s rd m e
    rw [BitVec.ofNat_toNat]
    exact ⟨t, loads [], xr, mr, err, idle⟩
  case uclr => exact fun s rd => ⟨_, rfl, fun i => by simp, fun _ => rfl, rfl, ⟨rfl, rfl⟩⟩
  case fromf256 =>
    have wide := execAll_fromf 256 s rd f (norm := .sd256Norm rd rd) fun _ => rfl
    simp only [BitVec.setWidth_eq] at wide
    exact wide

end Sys2Proof.Machine
end

section
/-! SDW.ADD and SDW.MUL under the default `FP` commute on finite mantissas (45_sd_arith.md, section 2 (a)): a finite
mantissa is neither a NaN nor an infinity, and the exact sum and product do. -/

namespace Sys2Proof.Machine

variable {n : Nat} {a b : F64}

theorem f64IsNan_of_finite (h : f64IsFinite a = true) : f64IsNan a = false := by
  simp only [f64IsFinite, decide_eq_true_eq] at h
  simp only [f64IsNan, decide_eq_false_iff_not]
  omega

theorem f64IsInf_of_finite (h : f64IsFinite a = true) : f64IsInf a = false := by
  simp only [f64IsFinite, decide_eq_true_eq] at h
  simp only [f64IsInf, beq_eq_false_iff_ne]
  omega

theorem f64Add_of_finite (ha : f64IsFinite a = true) (hb : f64IsFinite b = true) : f64Add a b = f64AddFinite a b := by
  simp [f64Add, f64IsNan_of_finite, f64IsInf_of_finite, ha, hb]

theorem f64Mul_of_finite (ha : f64IsFinite a = true) (hb : f64IsFinite b = true) :
    f64Mul a b = f64Round (Bool.xor (f64Negative a) (f64Negative b)) (f64Significand a * f64Significand b)
      (f64Scale a + f64Scale b + (floatBias - 2150)) := by
  simp [f64Mul, f64IsNan_of_finite, f64IsInf_of_finite, ha, hb]

theorem f64AddFinite_comm (a b : F64) : f64AddFinite a b = f64AddFinite b a := by
  have scale : Nat.min (f64Scale a) (f64Scale b) = Nat.min (f64Scale b) (f64Scale a) := Nat.min_comm _ _
  simp only [f64AddFinite, scale]
  generalize f64Significand a * _ = p, f64Significand b * _ = q
  by_cases signs : f64Negative a = f64Negative b
  · simp [signs, Nat.add_comm p q]
  · rcases Nat.lt_trichotomy p q with lt | rfl | gt
    · simp [signs, Ne.symm signs, lt, lt.ne, lt.ne', lt.not_gt]
    · simp [signs, Ne.symm signs]
    · simp [signs, Ne.symm signs, gt, gt.ne, gt.ne', gt.not_gt]

theorem f64Add_comm (ha : f64IsFinite a = true) (hb : f64IsFinite b = true) : f64Add a b = f64Add b a := by
  rw [f64Add_of_finite ha hb, f64Add_of_finite hb ha, f64AddFinite_comm]

theorem f64Mul_comm (ha : f64IsFinite a = true) (hb : f64IsFinite b = true) : f64Mul a b = f64Mul b a := by
  rw [f64Mul_of_finite ha hb, f64Mul_of_finite hb ha, Bool.xor_comm, Nat.mul_comm, Nat.add_comm (f64Scale a)]

/-- Only at equal exponents are the mantissas added in the order given. -/
theorem alignedAdd_comm {fp : FP} {a b : ScaledDec n} (add : fp.add a.mant b.mant = fp.add b.mant a.mant) :
    alignedAdd fp a b = alignedAdd fp b a := by
  rcases BitVec.lt_trichotomy a.exp b.exp with lt | same | gt
  · rw [alignedAdd_of_exp_lt fp lt, alignedAdd_of_exp_gt fp lt]
  · rw [alignedAdd_of_exp_eq fp same, alignedAdd_of_exp_eq fp same.symm, add, same]
  · rw [alignedAdd_of_exp_gt fp gt, alignedAdd_of_exp_lt fp gt]

theorem multiplySd_comm {fp : FP} {a b : ScaledDec n} (mul : fp.mul a.mant b.mant = fp.mul b.mant a.mant) :
    multiplySd fp a b = multiplySd fp b a := by
  rw [multiplySd, multiplySd, mul, BitVec.add_comm]

/-- Settles O52: the commands write what `sdaddW` and the product give, in either order. -/
theorem addMulCommute : Obligations.AddMulCommute := by
  intro s rd rs1 rs2 sel fin1 fin2
  have fp : s.fp = ieeeFp := congrArg fpOf sel
  have add : s.fp.add (s.mr rs1) (s.mr rs2) = s.fp.add (s.mr rs2) (s.mr rs1) := fp ▸ f64Add_comm fin1 fin2
  have mul : s.fp.mul (s.mr rs1) (s.mr rs2) = s.fp.mul (s.mr rs2) (s.mr rs1) := fp ▸ f64Mul_comm fin1 fin2
  have sum (n : Nat) : sdAdd n rd rs1 rs2 s = sdAdd n rd rs2 rs1 s := by
    rw [sdAdd, sdAdd, alignedAdd_comm add]
  have product (n : Nat) : sdMul n rd rs1 rs2 s = sdMul n rd rs2 rs1 s := by
    rw [sdMul, sdMul, multiplySd_comm mul]
  exact ⟨sum 64, sum 256, product 64, product 256⟩

end Sys2Proof.Machine
end

section
/-! Rounding of the default `FP` (44_sd_normalize.md R190), as a function of the exact value: it is monotone, and it gives
a representable value back. That is all that the results on normalization need of the arithmetic. -/

namespace Sys2Proof.Machine

/-! ### The nearest natural number to a quotient -/

theorem roundShift_zero (n : Nat) : roundShift n 0 = n := by
  simp [roundShift, Nat.mod_one]

/-- A common power of two cancels. -/
theorem roundShift_mul_two_pow (n s e : Nat) : roundShift (n * 2 ^ e) (s + e) = roundShift n s := by
  have positive : 0 < 2 ^ e := Nat.two_pow_pos e
  have less : 2 ^ s * 2 ^ e < 2 * (n % 2 ^ s * 2 ^ e) ↔ 2 ^ s < 2 * (n % 2 ^ s) := by
    rw [← Nat.mul_assoc, Nat.mul_lt_mul_right positive]
  have tie : 2 ^ s * 2 ^ e = 2 * (n % 2 ^ s * 2 ^ e) ↔ 2 ^ s = 2 * (n % 2 ^ s) := by
    rw [← Nat.mul_assoc, Nat.mul_left_inj positive.ne']
  simp only [roundShift, Nat.pow_add, Nat.mul_div_mul_right _ _ positive, Nat.mul_mod_mul_right, less, tie]

theorem roundShift_of_multiple (n s : Nat) : roundShift (n * 2 ^ s) s = n := by
  have exact_quotient := roundShift_mul_two_pow n 0 s
  rwa [Nat.zero_add, roundShift_zero] at exact_quotient

/-- The rounded quotient is the floor or one more. -/
theorem roundShift_bounds (n s : Nat) : n / 2 ^ s ≤ roundShift n s ∧ roundShift n s ≤ n / 2 ^ s + 1 := by
  simp only [roundShift]
  split
  · omega
  · split <;> omega

theorem roundShift_mono {m n : Nat} (s : Nat) (h : m ≤ n) : roundShift m s ≤ roundShift n s := by
  rcases Nat.lt_or_eq_of_le (Nat.div_le_div_right (c := 2 ^ s) h) with apart | same
  · have below := (roundShift_bounds m s).2
    have above := (roundShift_bounds n s).1
    omega
  · have rests : m % 2 ^ s ≤ n % 2 ^ s := by
      have hm := Nat.div_add_mod m (2 ^ s)
      have hn := Nat.div_add_mod n (2 ^ s)
      rw [← same] at hn
      omega
    simp only [roundShift, same]
    generalize n / 2 ^ s = q, m % 2 ^ s = rm, n % 2 ^ s = rn, 2 ^ s = p at *
    split_ifs <;> omega

/-! ### The magnitude bits of a value -/

/-- The exponent of the unit in the last place of the value `x`, in units of `2 ^ -floatBias`. -/
def ulpExponent (f : FloatFormat) (x : Nat) : Nat := Nat.max (Nat.log2 x + 1 - f.precision) f.least

/-- The magnitude bits of the value of format `f` nearest to `x` units of `2 ^ -floatBias`, if no value were too large. -/
def nearestMagnitude (f : FloatFormat) (x : Nat) : Nat :=
  (ulpExponent f x - f.least) * 2 ^ (f.precision - 1) + roundShift x (ulpExponent f x)

theorem log2_mul_two_pow {n : Nat} (h : n ≠ 0) (e : Nat) : Nat.log2 (n * 2 ^ e) = e + Nat.log2 n := by
  induction e with
  | zero => simp
  | succ e ih =>
    rw [Nat.pow_succ, ← Nat.mul_assoc, Nat.mul_comm _ 2, Nat.log2_two_mul (Nat.mul_ne_zero h (Nat.two_pow_pos e).ne'), ih]
    omega

/-- The model's rounding sees of `n * 2 ^ e` the value alone. -/
theorem roundMagnitude_eq (f : FloatFormat) {n : Nat} (h : n ≠ 0) (e : Nat) :
    roundMagnitude f n e = Nat.min (nearestMagnitude f (n * 2 ^ e)) f.infinity := by
  have ulp : ulpExponent f (n * 2 ^ e) = Nat.max (e + (Nat.log2 n + 1) - f.precision) f.least := by
    rw [ulpExponent, log2_mul_two_pow h, Nat.add_assoc]
  simp only [roundMagnitude, nearestMagnitude, ← ulp]
  generalize ulpExponent f (n * 2 ^ e) = u
  congr 2
  split
  case isTrue le =>
    obtain ⟨k, rfl⟩ := Nat.exists_eq_add_of_le' le
    rw [Nat.add_sub_cancel, Nat.pow_add, ← Nat.mul_assoc, roundShift_of_multiple]
  case isFalse gt =>
    obtain ⟨k, rfl⟩ := Nat.exists_eq_add_of_le' (Nat.le_of_not_le gt)
    rw [Nat.add_sub_cancel, roundShift_mul_two_pow]

/-- A larger value has no smaller magnitude bits: within a binade because `roundShift` is monotone, across binades because a
rounded value does not leave its binade but for the least value of the next. -/
theorem nearestMagnitude_mono {f : FloatFormat} (prec : 0 < f.precision) {x y : Nat} (hx : x ≠ 0) (h : x ≤ y) :
    nearestMagnitude f x ≤ nearestMagnitude f y := by
  have hy : y ≠ 0 := by omega
  have logs : Nat.log2 x ≤ Nat.log2 y := (Nat.le_log2 hy).mpr (Nat.le_trans ((Nat.le_log2 hx).mp (Nat.le_refl _)) h)
  have ulps : ulpExponent f x ≤ ulpExponent f y := by
    simp only [ulpExponent, Nat.max_def]
    split <;> split <;> omega
  rcases Nat.lt_or_eq_of_le ulps with apart | same
  · have least : f.least ≤ ulpExponent f x := Nat.le_max_right _ _
    have topX : Nat.log2 x < ulpExponent f x + f.precision := by
      have := Nat.le_max_left (Nat.log2 x + 1 - f.precision) f.least
      have : Nat.log2 x + 1 - f.precision ≤ ulpExponent f x := this
      omega
    have topY : ulpExponent f y + (f.precision - 1) ≤ Nat.log2 y := by
      have : ulpExponent f y = Nat.max (Nat.log2 y + 1 - f.precision) f.least := rfl
      simp only [Nat.max_def] at this
      split at this <;> omega
    have boundX : x / 2 ^ ulpExponent f x < 2 ^ f.precision := by
      rw [Nat.div_lt_iff_lt_mul (Nat.two_pow_pos _), ← Nat.pow_add, Nat.add_comm]
      exact (Nat.log2_lt hx).mp topX
    have boundY : 2 ^ (f.precision - 1) ≤ y / 2 ^ ulpExponent f y := by
      rw [Nat.le_div_iff_mul_le (Nat.two_pow_pos _), ← Nat.pow_add, Nat.add_comm]
      exact (Nat.le_log2 hy).mp topY
    have binade : 2 ^ f.precision = 2 * 2 ^ (f.precision - 1) := by
      rw [← Nat.pow_succ', Nat.succ_eq_add_one, Nat.sub_add_cancel prec]
    have roundX := (roundShift_bounds x (ulpExponent f x)).2
    have roundY := (roundShift_bounds y (ulpExponent f y)).1
    calc nearestMagnitude f x ≤ (ulpExponent f x - f.least + 1) * 2 ^ (f.precision - 1) + 2 ^ (f.precision - 1) := by
          rw [nearestMagnitude, Nat.succ_mul]
          omega
      _ ≤ (ulpExponent f y - f.least) * 2 ^ (f.precision - 1) + 2 ^ (f.precision - 1) :=
          Nat.add_le_add_right (Nat.mul_le_mul_right _ (by omega)) _
      _ ≤ nearestMagnitude f y := Nat.add_le_add_left (Nat.le_trans boundY roundY) _
  · rw [nearestMagnitude, nearestMagnitude, same]
    exact Nat.add_le_add_left (roundShift_mono _ h) _

/-! ### Representable values of binary64 -/

/-- A significand and a scale of a finite binary64 pattern: normal, or of the least scale (R190). -/
structure Representable (p e : Nat) : Prop where
  positive : p ≠ 0
  fits : p < 2 ^ 53
  scale : 1 ≤ e
  normal : 2 ^ 52 ≤ p ∨ e = 1

/-- A representable value is its own nearest. -/
theorem nearestMagnitude_of_representable {p e : Nat} (h : Representable p e) :
    nearestMagnitude binary64 (p * 2 ^ (e + 3021)) = (e - 1) * 2 ^ 52 + p := by
  obtain ⟨positive, fits, scale, normal⟩ := h
  have top : Nat.log2 p < 53 := (Nat.log2_lt positive).mpr fits
  have ulp : ulpExponent binary64 (p * 2 ^ (e + 3021)) = e + 3021 := by
    have bottom : 52 ≤ Nat.log2 p ∨ e = 1 := normal.imp_left (Nat.le_log2 positive).mpr
    rw [ulpExponent, log2_mul_two_pow positive]
    simp only [binary64, floatBias, Nat.max_def]
    split <;> omega
  have least : e + 3021 - binary64.least = e - 1 := by
    simp only [binary64, floatBias]
    omega
  have precision : binary64.precision - 1 = 52 := rfl
  rw [nearestMagnitude, ulp, roundShift_of_multiple, least, precision]

/-! ### Patterns -/

section
variable (negative : Bool) {m : Nat} (h : m < 2 ^ 63)
include h

theorem toNat_f64Pack : (f64Pack negative m).toNat = if negative then m + 2 ^ 63 else m := by
  rw [f64Pack, BitVec.toNat_ofNat, Nat.mod_eq_of_lt]
  split <;> omega

theorem f64Magnitude_f64Pack : f64Magnitude (f64Pack negative m) = m := by
  rw [f64Magnitude, toNat_f64Pack negative h]
  split <;> omega

theorem f64Negative_f64Pack : f64Negative (f64Pack negative m) = negative := by
  rw [f64Negative, BitVec.msb_eq_decide, toNat_f64Pack negative h]
  cases negative
  · simpa using h
  · simp

end

/-- A pattern is its sign and its magnitude. -/
theorem f64Pack_self (a : F64) : f64Pack (f64Negative a) (f64Magnitude a) = a := by
  apply BitVec.eq_of_toNat_eq
  have magnitude : f64Magnitude a < 2 ^ 63 := Nat.mod_lt _ (by decide)
  rw [toNat_f64Pack _ magnitude, f64Negative, BitVec.msb_eq_decide, f64Magnitude]
  have bounded : a.toNat < 2 ^ 64 := a.isLt
  simp only [decide_eq_true_eq]
  split <;> omega

/-- The magnitude of a rounded value: the nearest, or infinity. -/
theorem f64Round_parts (negative : Bool) {n : Nat} (h : n ≠ 0) (e : Nat) :
    f64Magnitude (f64Round negative n e) = Nat.min (nearestMagnitude binary64 (n * 2 ^ e)) f64InfMagnitude ∧
      f64Negative (f64Round negative n e) = negative := by
  have bounded : Nat.min (nearestMagnitude binary64 (n * 2 ^ e)) f64InfMagnitude < 2 ^ 63 :=
    Nat.lt_of_le_of_lt (Nat.min_le_right _ _) (by decide)
  rw [f64Round, if_neg h, roundMagnitude_eq binary64 h]
  exact ⟨f64Magnitude_f64Pack negative bounded, f64Negative_f64Pack negative bounded⟩

/-- The magnitude bits of a pattern, from its scale and its significand. -/
theorem f64Magnitude_eq (a : F64) : f64Magnitude a = (f64Scale a - 1) * 2 ^ 52 + f64Significand a := by
  simp only [f64Scale, f64Significand]
  split <;> omega

theorem representable_of_ne_zero {a : F64} (h : f64Magnitude a ≠ 0) : Representable (f64Significand a) (f64Scale a) := by
  simp only [f64Scale, f64Significand]
  split
  · exact ⟨by omega, by omega, by omega, by omega⟩
  · exact ⟨by omega, by omega, by omega, by omega⟩

/-- The exact magnitude of a finite pattern, in units of `2 ^ -floatBias`. -/
def f64Exact (a : F64) : Nat := f64Significand a * 2 ^ (f64Scale a + 3021)

theorem f64Exact_ne_zero {a : F64} (h : f64Magnitude a ≠ 0) : f64Exact a ≠ 0 :=
  Nat.mul_ne_zero (representable_of_ne_zero h).positive (Nat.two_pow_pos _).ne'

theorem nearestMagnitude_f64Exact {a : F64} (h : f64Magnitude a ≠ 0) :
    nearestMagnitude binary64 (f64Exact a) = f64Magnitude a := by
  rw [f64Exact, nearestMagnitude_of_representable (representable_of_ne_zero h), f64Magnitude_eq]

/-- The magnitude bits grow with the exact magnitude, so that the exact magnitude grows with them. -/
theorem f64Exact_mono {a b : F64} (ha : f64Magnitude a ≠ 0) (hb : f64Magnitude b ≠ 0)
    (h : f64Magnitude a ≤ f64Magnitude b) : f64Exact a ≤ f64Exact b := by
  by_contra less
  have reversed := nearestMagnitude_mono (f := binary64) (by decide) (f64Exact_ne_zero hb) (Nat.le_of_not_le less)
  rw [nearestMagnitude_f64Exact ha, nearestMagnitude_f64Exact hb] at reversed
  have same : f64Magnitude a = f64Magnitude b := Nat.le_antisymm h reversed
  exact less (by simp only [f64Exact, f64Significand, f64Scale, same, Nat.le_refl])

end Sys2Proof.Machine
end

section
/-! One turn of each loop of normalization under the default `FP` (44_sd_normalize.md R193): the division by ten makes a
magnitude of 1.0 or more smaller, the multiplication by ten makes one below 0.1 larger, and not as large as 1.0. -/

namespace Sys2Proof.Machine

variable {a : F64}

theorem f64Magnitude_one : f64Magnitude ieeeFp.one = 0x3FF0000000000000 := rfl

theorem f64Magnitude_tenth : f64Magnitude ieeeFp.tenth = 0x3FB999999999999A := rfl

theorem f64Scale_ten : f64Scale ieeeFp.ten = 1026 := rfl

theorem f64Significand_ten : f64Significand ieeeFp.ten = 5 * 2 ^ 50 := rfl

/-- The quotient by ten, with its rest, is between a sixteenth and a half of what is divided. -/
theorem quotientWithRest_ten_bounds {p : Nat} (h : p ≠ 0) :
    p * 2 ^ 60 ≤ quotientWithRest p (5 * 2 ^ 50) ∧ quotientWithRest p (5 * 2 ^ 50) ≤ p * 2 ^ 63 := by
  have cancel : p * 2 ^ 112 / (5 * 2 ^ 50) = p * 2 ^ 62 / 5 := by
    rw [show p * 2 ^ 112 = p * 2 ^ 62 * 2 ^ 50 by rw [Nat.mul_assoc, ← Nat.pow_add],
      Nat.mul_div_mul_right _ _ (Nat.two_pow_pos 50)]
  simp only [quotientWithRest, cancel]
  generalize p * 2 ^ 112 % (5 * 2 ^ 50) = rest
  split <;> omega

theorem f64Div_ten (finite : f64IsFinite a = true) :
    f64Div a ieeeFp.ten =
      f64Round (f64Negative a) (quotientWithRest (f64Significand a) (5 * 2 ^ 50)) (f64Scale a + 2957) := by
  have number : f64IsNan ieeeFp.ten = false := rfl
  have notInf : f64IsInf ieeeFp.ten = false := rfl
  have nonzero : f64Magnitude ieeeFp.ten ≠ 0 := by decide
  have positive : f64Negative ieeeFp.ten = false := rfl
  have exponent : f64Scale a + (floatBias - 113) - 1026 = f64Scale a + 2957 := by
    simp only [floatBias]
    omega
  simp only [f64Div, f64IsNan_of_finite finite, f64IsInf_of_finite finite, number, notInf, nonzero, positive,
    f64Scale_ten, f64Significand_ten, exponent, Bool.xor_false, Bool.or_false, Bool.false_eq_true, if_false]

theorem f64Mul_ten (finite : f64IsFinite a = true) :
    f64Mul a ieeeFp.ten = f64Round (f64Negative a) (f64Significand a * (5 * 2 ^ 50)) (f64Scale a + 2972) := by
  have positive : f64Negative ieeeFp.ten = false := rfl
  rw [f64Mul_of_finite finite rfl, positive, f64Scale_ten, f64Significand_ten, Bool.xor_false]
  rfl

/-- One turn of step 1. -/
theorem f64Div_ten_shrinks (finite : f64IsFinite a = true) (large : f64Magnitude ieeeFp.one ≤ f64Magnitude a) :
    f64Magnitude (f64Div a ieeeFp.ten) ≠ 0 ∧ f64Magnitude (f64Div a ieeeFp.ten) < f64Magnitude a ∧
      f64Negative (f64Div a ieeeFp.ten) = f64Negative a := by
  have nonzero : f64Magnitude a ≠ 0 := by
    rw [f64Magnitude_one] at large
    omega
  have magnitude := f64Magnitude_eq a
  obtain ⟨positive, fits, _, normal⟩ := representable_of_ne_zero nonzero
  rw [f64Div_ten finite]
  generalize f64Significand a = p, f64Scale a = e at *
  rw [f64Magnitude_one] at large
  have scale : 1023 ≤ e := by omega
  obtain ⟨sixteenth, half⟩ := quotientWithRest_ten_bounds positive
  have quotient : quotientWithRest p (5 * 2 ^ 50) ≠ 0 := by omega
  obtain ⟨mag, neg⟩ := f64Round_parts (f64Negative a) quotient (e + 2957)
  generalize quotientWithRest p (5 * 2 ^ 50) = n at *
  have lower : (e - 4 - 1) * 2 ^ 52 + p ≤ nearestMagnitude binary64 (n * 2 ^ (e + 2957)) := by
    rw [← nearestMagnitude_of_representable ⟨positive, fits, by omega, by omega⟩]
    refine nearestMagnitude_mono (by decide) (Nat.mul_ne_zero positive (Nat.two_pow_pos _).ne') ?_
    rw [show e - 4 + 3021 = 60 + (e + 2957) by omega, Nat.pow_add 2 60, ← Nat.mul_assoc]
    exact Nat.mul_le_mul_right _ sixteenth
  have upper : nearestMagnitude binary64 (n * 2 ^ (e + 2957)) ≤ (e - 1 - 1) * 2 ^ 52 + p := by
    rw [← nearestMagnitude_of_representable ⟨positive, fits, by omega, by omega⟩]
    refine nearestMagnitude_mono (by decide) (Nat.mul_ne_zero quotient (Nat.two_pow_pos _).ne') ?_
    rw [show e - 1 + 3021 = 63 + (e + 2957) by omega, Nat.pow_add 2 63, ← Nat.mul_assoc]
    exact Nat.mul_le_mul_right _ half
  rw [mag]
  refine ⟨?_, ?_, neg⟩
  · simp only [Nat.min_def, f64InfMagnitude]
    split <;> omega
  · exact Nat.lt_of_le_of_lt (Nat.min_le_left _ _) (by omega)

/-- Twice a magnitude has larger magnitude bits: the next scale, or of a subnormal twice the bits. -/
theorem lt_nearestMagnitude_double (nonzero : f64Magnitude a ≠ 0) :
    f64Magnitude a < nearestMagnitude binary64 (2 * f64Exact a) := by
  obtain ⟨positive, fits, scale, normal⟩ := representable_of_ne_zero nonzero
  rw [f64Magnitude_eq, f64Exact]
  generalize f64Significand a = p, f64Scale a = e at *
  by_cases full : 2 ^ 52 ≤ p
  · have next := nearestMagnitude_of_representable (e := e + 1) ⟨positive, fits, by omega, .inl full⟩
    rw [show p * 2 ^ (e + 1 + 3021) = 2 * (p * 2 ^ (e + 3021)) by
      rw [Nat.add_right_comm, Nat.pow_succ', Nat.mul_left_comm]] at next
    omega
  · obtain rfl : e = 1 := normal.resolve_left full
    have twice := nearestMagnitude_of_representable (p := 2 * p) (e := 1) ⟨by omega, by omega, by omega, .inr rfl⟩
    rw [Nat.mul_assoc] at twice
    omega

/-- The largest pattern below `FP.TENTH`. -/
def belowTenth : F64 := 0x3FB9999999999999#64

/-- Ten times the largest pattern below 0.1 rounds to the largest below 1.0. -/
theorem nearestMagnitude_ten_belowTenth :
    nearestMagnitude binary64 (10 * f64Exact belowTenth) = 0x3FEFFFFFFFFFFFFF := by
  decide +kernel

/-- One turn of step 2. -/
theorem f64Mul_ten_grows (nonzero : f64Magnitude a ≠ 0) (small : f64Magnitude a < f64Magnitude ieeeFp.tenth) :
    f64Magnitude a < f64Magnitude (f64Mul a ieeeFp.ten) ∧
      f64Magnitude (f64Mul a ieeeFp.ten) < f64Magnitude ieeeFp.one ∧
      f64Negative (f64Mul a ieeeFp.ten) = f64Negative a := by
  have finite : f64IsFinite a = true := by
    rw [f64Magnitude_tenth] at small
    exact decide_eq_true (Nat.lt_trans small (by decide))
  have product : f64Significand a * (5 * 2 ^ 50) ≠ 0 :=
    Nat.mul_ne_zero (representable_of_ne_zero nonzero).positive (by decide)
  have exact_product : f64Significand a * (5 * 2 ^ 50) * 2 ^ (f64Scale a + 2972) = 10 * f64Exact a := by
    rw [f64Exact, show f64Scale a + 3021 = f64Scale a + 2972 + 49 from rfl, Nat.pow_add 2 (f64Scale a + 2972) 49]
    generalize 2 ^ (f64Scale a + 2972) = unit
    ring
  obtain ⟨mag, neg⟩ := f64Round_parts (f64Negative a) product (f64Scale a + 2972)
  have exact_nonzero := f64Exact_ne_zero nonzero
  have lower : f64Magnitude a < nearestMagnitude binary64 (10 * f64Exact a) :=
    Nat.lt_of_lt_of_le (lt_nearestMagnitude_double nonzero)
      (nearestMagnitude_mono (by decide) (by omega) (Nat.mul_le_mul_right _ (by decide)))
  have upper : nearestMagnitude binary64 (10 * f64Exact a) ≤ 0x3FEFFFFFFFFFFFFF := by
    have below : f64Exact a ≤ f64Exact belowTenth :=
      f64Exact_mono nonzero (by decide) (Nat.le_of_lt_succ small)
    rw [← nearestMagnitude_ten_belowTenth]
    exact nearestMagnitude_mono (by decide) (by omega) (Nat.mul_le_mul_left _ below)
  rw [f64Mul_ten finite, mag, exact_product]
  generalize nearestMagnitude binary64 (10 * f64Exact a) = nearest at *
  rw [f64Magnitude_one]
  refine ⟨?_, Nat.lt_of_le_of_lt (Nat.min_le_left _ _) (by omega), neg⟩
  simp only [Nat.min_def, f64InfMagnitude]
  split <;> omega

end Sys2Proof.Machine
end

section
/-! The tests of the loops under the default `FP`, on patterns that are not NaNs: each is a statement of the sign and the
magnitude (44_sd_normalize.md R190, R193). -/

namespace Sys2Proof.Machine

variable {a : F64}

theorem f64IsNan_iff : f64IsNan a = true ↔ f64InfMagnitude < f64Magnitude a := decide_eq_true_iff

theorem f64IsInf_iff : f64IsInf a = true ↔ f64Magnitude a = f64InfMagnitude := beq_iff_eq

theorem f64IsFinite_iff : f64IsFinite a = true ↔ f64Magnitude a < f64InfMagnitude := decide_eq_true_iff

theorem f64IsFinite_or_inf_or_nan (a : F64) : f64IsFinite a = true ∨ f64IsInf a = true ∨ f64IsNan a = true := by
  rw [f64IsFinite_iff, f64IsInf_iff, f64IsNan_iff]
  exact Nat.lt_trichotomy _ _

/-- A magnitude below 1.0 is finite. -/
theorem f64IsFinite_of_lt_one (h : f64Magnitude a < f64Magnitude ieeeFp.one) : f64IsFinite a = true :=
  f64IsFinite_iff.mpr (Nat.lt_trans h (by decide))

theorem f64Magnitude_f64Abs (a : F64) : f64Magnitude (f64Abs a) = f64Magnitude a := by
  have mask : (0x7FFFFFFFFFFFFFFF#64).toNat = 2 ^ 63 - 1 := rfl
  rw [f64Magnitude, f64Abs, BitVec.toNat_and, mask, Nat.and_two_pow_sub_one_eq_mod, Nat.mod_mod, f64Magnitude]

theorem f64Negative_f64Abs (a : F64) : f64Negative (f64Abs a) = false := by
  have mask : (0x7FFFFFFFFFFFFFFF#64).msb = false := rfl
  rw [f64Negative, f64Abs, BitVec.msb_and, mask, Bool.and_false]

theorem f64IsNan_f64Abs (a : F64) : f64IsNan (f64Abs a) = f64IsNan a := by
  rw [f64IsNan, f64Magnitude_f64Abs, f64IsNan]

theorem f64Key_of_positive (h : f64Negative a = false) : f64Key a = f64Magnitude a := by
  simp [f64Key, h]

theorem f64Key_of_negative (h : f64Negative a = true) : f64Key a = -f64Magnitude a := by
  simp [f64Key, h]

theorem f64Key_eq_zero_iff : f64Key a = 0 ↔ f64Magnitude a = 0 := by
  cases sign : f64Negative a with
  | false => rw [f64Key_of_positive sign, Int.natCast_eq_zero]
  | true => rw [f64Key_of_negative sign, Int.neg_eq_zero, Int.natCast_eq_zero]

section
variable (number : f64IsNan a = false)
include number

theorem f64Le_eq_decide {b : F64} (hb : f64IsNan b = false) : f64Le a b = decide (f64Key a ≤ f64Key b) := by
  simp [f64Le, number, hb]

/-- Step 0. -/
theorem eq_zero_eq_decide : ieeeFp.eq a ieeeFp.zero = decide (f64Magnitude a = 0) := by
  have zero : f64Key ieeeFp.zero = 0 := rfl
  have test : ieeeFp.eq a ieeeFp.zero = decide (f64Key a = f64Key ieeeFp.zero) := f64Eq_eq_decide number rfl
  rw [test, zero, decide_eq_decide, f64Key_eq_zero_iff]

/-- The test of step 1. -/
theorem le_one_abs_eq_decide :
    ieeeFp.le ieeeFp.one (ieeeFp.abs a) = decide (f64Magnitude ieeeFp.one ≤ f64Magnitude a) := by
  have one : f64Key ieeeFp.one = f64Magnitude ieeeFp.one := rfl
  have abs : f64Key (f64Abs a) = f64Magnitude a := by
    rw [f64Key_of_positive (f64Negative_f64Abs a), f64Magnitude_f64Abs]
  have test : ieeeFp.le ieeeFp.one (ieeeFp.abs a) = decide (f64Key ieeeFp.one ≤ f64Key (f64Abs a)) :=
    f64Le_eq_decide rfl ((f64IsNan_f64Abs a).trans number)
  rw [test, one, abs, decide_eq_decide, Int.ofNat_le]

/-- The test of step 2, on a mantissa that is not a zero: a positive one below 0.1. -/
theorem small_eq_decide (nonzero : f64Magnitude a ≠ 0) :
    (ieeeFp.le ieeeFp.zero a && ieeeFp.lt a ieeeFp.tenth) =
      decide (f64Negative a = false ∧ f64Magnitude a < f64Magnitude ieeeFp.tenth) := by
  have zero : f64Key ieeeFp.zero = 0 := rfl
  have tenth : f64Key ieeeFp.tenth = f64Magnitude ieeeFp.tenth := rfl
  have low : ieeeFp.le ieeeFp.zero a = decide (f64Key ieeeFp.zero ≤ f64Key a) := f64Le_eq_decide rfl number
  have high : ieeeFp.lt a ieeeFp.tenth = decide (f64Key a < f64Key ieeeFp.tenth) := f64Lt_eq_decide number rfl
  rw [low, high, zero, tenth, ← Bool.decide_and, decide_eq_decide]
  cases sign : f64Negative a with
  | false =>
    rw [f64Key_of_positive sign]
    simp only [true_and]
    omega
  | true =>
    rw [f64Key_of_negative sign]
    simp only [Bool.true_eq_false, false_and, iff_false]
    omega

end

end Sys2Proof.Machine
end

section
/-! Normalization under the default `FP` (44_sd_normalize.md R194, R199): it ends on every finite mantissa, in the band;
it returns a NaN; on an infinity it does not end. -/

namespace Sys2Proof.Machine

variable {n : Nat} {v w : ScaledDec n}

/-! ### The band (R194 (d)) -/

/-- A mantissa in the band, by its sign and its magnitude. -/
structure Normalized (m : F64) : Prop where
  belowOne : f64Magnitude m < f64Magnitude ieeeFp.one
  band : f64Magnitude m = 0 ∨ f64Negative m = true ∨ f64Magnitude ieeeFp.tenth ≤ f64Magnitude m

theorem Normalized.number {m : F64} (h : Normalized m) : f64IsNan m = false :=
  f64IsNan_of_finite (f64IsFinite_of_lt_one h.belowOne)

theorem Normalized.inBand {m : F64} (h : Normalized m) : InBand ieeeFp m := by
  by_cases zero : f64Magnitude m = 0
  · exact .inl ((eq_zero_eq_decide h.number).trans (decide_eq_true zero))
  · have below := h.belowOne
    cases sign : f64Negative m with
    | false =>
      have large := (h.band.resolve_left zero).resolve_left (by simp [sign])
      refine .inr (.inl ⟨(f64Le_eq_decide rfl h.number).trans (decide_eq_true ?_),
        (f64Lt_eq_decide h.number rfl).trans (decide_eq_true ?_)⟩)
      · rw [f64Key_of_positive sign]
        exact Int.ofNat_le.mpr large
      · rw [f64Key_of_positive sign]
        exact Int.ofNat_lt.mpr below
    | true =>
      have minusOne : f64Key (ieeeFp.neg ieeeFp.one) = -f64Magnitude ieeeFp.one := rfl
      have zeroKey : f64Key ieeeFp.zero = 0 := rfl
      refine .inr (.inr ⟨(f64Lt_eq_decide rfl h.number).trans (decide_eq_true ?_),
        (f64Lt_eq_decide h.number rfl).trans (decide_eq_true ?_)⟩)
      · rw [f64Key_of_negative sign, minusOne]
        omega
      · rw [f64Key_of_negative sign, zeroKey]
        omega

/-- Neither loop makes a turn on a mantissa in the band. -/
theorem Normalized.normalizesTo_self (h : Normalized v.mant) : NormalizesTo ieeeFp v v := by
  have step0 := eq_zero_eq_decide h.number
  by_cases zero : f64Magnitude v.mant = 0
  · exact .inl ⟨step0.trans (decide_eq_true zero), rfl⟩
  · refine .inr ⟨step0.trans (decide_eq_false zero), v, .stop v ?_, .stop v ?_⟩
    · exact (le_one_abs_eq_decide h.number).trans (decide_eq_false (Nat.not_le.mpr h.belowOne))
    · refine (small_eq_decide h.number zero).trans (decide_eq_false ?_)
      rintro ⟨positive, small⟩
      rcases h.band.resolve_left zero with negative | large
      · exact absurd (positive.symm.trans negative) (by decide)
      · omega

/-! ### The loops end on a finite mantissa -/

/-- Step 1 ends, since every turn makes the magnitude smaller, and leaves a mantissa below 1.0 that is not a zero. -/
theorem divideRuns_of_finite (finite : f64IsFinite v.mant = true) (nonzero : f64Magnitude v.mant ≠ 0) :
    ∃ w, DivideRuns ieeeFp v w ∧ f64Magnitude w.mant ≠ 0 ∧ f64Magnitude w.mant < f64Magnitude ieeeFp.one := by
  induction size : f64Magnitude v.mant using Nat.strong_induction_on generalizing v with
  | _ size ih =>
    subst size
    have test := le_one_abs_eq_decide (f64IsNan_of_finite finite)
    by_cases large : f64Magnitude ieeeFp.one ≤ f64Magnitude v.mant
    · obtain ⟨nonzero', smaller, _⟩ := f64Div_ten_shrinks finite large
      have finite' := f64IsFinite_iff.mpr (Nat.lt_trans smaller (f64IsFinite_iff.mp finite))
      obtain ⟨w, runs, ends⟩ := ih _ smaller (v := ⟨f64Div v.mant ieeeFp.ten, v.exp + 1⟩) finite' nonzero' rfl
      exact ⟨w, .turn v w (test.trans (decide_eq_true large)) runs, ends⟩
    · exact ⟨v, .stop v (test.trans (decide_eq_false large)), nonzero, Nat.lt_of_not_le large⟩

/-- Step 2 ends, since every turn makes the magnitude larger and none reaches 1.0, and leaves a mantissa in the band. -/
theorem multiplyRuns_of_lt_one (below : f64Magnitude v.mant < f64Magnitude ieeeFp.one)
    (nonzero : f64Magnitude v.mant ≠ 0) : ∃ w, MultiplyRuns ieeeFp v w ∧ Normalized w.mant := by
  induction size : f64Magnitude ieeeFp.one - f64Magnitude v.mant using Nat.strong_induction_on generalizing v with
  | _ size ih =>
    subst size
    have test := small_eq_decide (f64IsNan_of_finite (f64IsFinite_of_lt_one below)) nonzero
    by_cases small : f64Negative v.mant = false ∧ f64Magnitude v.mant < f64Magnitude ieeeFp.tenth
    · obtain ⟨larger, below', _⟩ := f64Mul_ten_grows nonzero small.2
      obtain ⟨w, runs, normalized⟩ := ih _ (Nat.sub_lt_sub_left below larger)
        (v := ⟨f64Mul v.mant ieeeFp.ten, v.exp - 1⟩) below' (Nat.ne_zero_of_lt larger) rfl
      exact ⟨w, .turn v w (test.trans (decide_eq_true small)) runs, normalized⟩
    · refine ⟨v, .stop v (test.trans (decide_eq_false small)), below, .inr ?_⟩
      cases sign : f64Negative v.mant with
      | false => exact .inr (Nat.le_of_not_lt fun less => small ⟨sign, less⟩)
      | true => exact .inl rfl

/-- Normalization ends on every finite mantissa, in the band. -/
theorem normalizesTo_of_finite (finite : f64IsFinite v.mant = true) :
    ∃ w, NormalizesTo ieeeFp v w ∧ Normalized w.mant := by
  by_cases zero : f64Magnitude v.mant = 0
  · have normalized : Normalized v.mant := ⟨zero ▸ by decide, .inl zero⟩
    exact ⟨v, normalized.normalizesTo_self, normalized⟩
  · obtain ⟨u, divides, nonzero, below⟩ := divideRuns_of_finite finite zero
    obtain ⟨w, multiplies, normalized⟩ := multiplyRuns_of_lt_one below nonzero
    have step0 := eq_zero_eq_decide (f64IsNan_of_finite finite)
    exact ⟨w, .inr ⟨step0.trans (decide_eq_false zero), u, divides, multiplies⟩, normalized⟩

/-! ### Infinities and NaNs -/

/-- An infinity divided by ten is that infinity. -/
theorem f64Div_ten_of_inf {a : F64} (inf : f64IsInf a = true) : f64Div a ieeeFp.ten = a := by
  have magnitude := f64IsInf_iff.mp inf
  have number : f64IsNan a = false := by simp [f64IsNan, magnitude]
  have ten : f64IsNan ieeeFp.ten = false ∧ f64IsInf ieeeFp.ten = false ∧ f64Negative ieeeFp.ten = false :=
    ⟨rfl, rfl, rfl⟩
  have self := f64Pack_self a
  rw [magnitude] at self
  simp [f64Div, number, inf, ten, self]

/-- The first turn of step 1 leaves an infinity as it was. -/
theorem normalize_of_inf (inf : f64IsInf v.mant = true) : normalize ieeeFp v = none := by
  have magnitude := f64IsInf_iff.mp inf
  have number : f64IsNan v.mant = false := by simp [f64IsNan, magnitude]
  have nonzero : ieeeFp.eq v.mant ieeeFp.zero = false :=
    (eq_zero_eq_decide number).trans (decide_eq_false (by rw [magnitude]; decide))
  have turns : ieeeFp.le ieeeFp.one (ieeeFp.abs v.mant) = true :=
    (le_one_abs_eq_decide number).trans (decide_eq_true (by rw [magnitude]; decide))
  have same : ieeeFp.div v.mant ieeeFp.ten = v.mant := f64Div_ten_of_inf inf
  obtain ⟨fuel, bound⟩ := Nat.exists_eq_succ_of_ne_zero (Nat.two_pow_pos 64).ne'
  rw [normalize_eq, nonzero, loopBound, bound, divideLoop_succ, turns, same]
  simp

/-- Every test is false on a NaN. -/
theorem normalizesTo_of_nan (nan : f64IsNan v.mant = true) : NormalizesTo ieeeFp v v := by
  have eq : f64Eq v.mant ieeeFp.zero = false := by simp [f64Eq, nan]
  have large : f64Le ieeeFp.one (f64Abs v.mant) = false := by simp [f64Le, f64IsNan_f64Abs, nan]
  have low : f64Le ieeeFp.zero v.mant = false := by simp [f64Le, nan]
  exact .inr ⟨eq, v, .stop v large, .stop v (congrArg (· && _) low)⟩

/-- Settles O46: a mantissa that is no infinity is a NaN or finite, and there normalization ends. -/
theorem hangsExactlyOnInfinity : Obligations.HangsExactlyOnInfinity := by
  intro n v
  have nan : f64IsNan v.mant = true → normalize ieeeFp v = some v := fun nan =>
    normalize_eq_some_iff.mpr (normalizesTo_of_nan nan)
  refine ⟨⟨fun never => ?_, normalize_of_inf⟩, nan⟩
  rcases f64IsFinite_or_inf_or_nan v.mant with finite | inf | isNan
  · obtain ⟨w, ends, _⟩ := normalizesTo_of_finite finite
    cases never.symm.trans (normalize_eq_some_iff.mpr ends)
  · exact inf
  · cases never.symm.trans (nan isNan)

/-- Settles O45: a mantissa that is no NaN and on which normalization ends is finite. -/
theorem normalizedIsInBandAndFixed : Obligations.NormalizedIsInBandAndFixed := by
  intro n v w number ends
  have finite : f64IsFinite v.mant = true := by
    rcases f64IsFinite_or_inf_or_nan v.mant with finite | inf | nan
    · exact finite
    · cases (normalize_of_inf inf).symm.trans ends
    · exact absurd nan (Bool.eq_false_iff.mp number)
  obtain ⟨u, toU, normalized⟩ := normalizesTo_of_finite finite
  obtain rfl : w = u := Option.some.inj (ends.symm.trans (normalize_eq_some_iff.mpr toU))
  exact ⟨normalized.inBand, normalize_eq_some_iff.mpr normalized.normalizesTo_self⟩

end Sys2Proof.Machine
end

section
/-! The constants of the default `FP` (44_sd_normalize.md R191). -/

namespace Sys2Proof.Machine

/-- The divisors of the alignment, as listed, are the powers of ten. -/
theorem f64P10_eq_f64Pow10 : ∀ d < 17, 1 ≤ d → f64P10 d = f64Pow10 d := by decide +kernel

/-- The powers of ten up to 10^22 are exact (00_scope.md R7). -/
theorem f64Pow10_exact :
    ∀ k < 23, f64IsFinite (f64Pow10 k) = true ∧ f64Negative (f64Pow10 k) = false ∧
      f64Significand (f64Pow10 k) * 2 ^ f64Scale (f64Pow10 k) = 10 ^ k * 2 ^ 1075 := by
  decide +kernel

/-- Settles O47, by evaluating each constant. -/
theorem defaultConstantsAreExact : Obligations.DefaultConstantsAreExact := by
  have tenth : TenthProperty ieeeFp := by
    unfold TenthProperty
    decide +kernel
  have one : ieeeFp.pow10 0 = ieeeFp.one := by decide +kernel
  have ten : ieeeFp.pow10 1 = ieeeFp.ten := by decide +kernel
  exact ⟨tenth, one, ten, fun d low high => f64P10_eq_f64Pow10 d (Nat.lt_succ_of_le high) low,
    fun k high => f64Pow10_exact k (Nat.lt_succ_of_le high)⟩

end Sys2Proof.Machine
end
